-- ==== Sys2Proof/Word.lean ====
section
/-! DEFINITION. The word types of SB (spec/00_scope.md R8, R9): the constants of R8 as widths of bit vectors. -/

namespace Sys2Proof

/-- A register data word, `DW = 32` bits; also one stereo frame, `2*SW = 32` bits (00_scope.md R8). -/
abbrev Word := BitVec 32

/-- A register word address, `AW = 12` bits (00_scope.md R8; 20_memory.md R60). -/
abbrev Addr := BitVec 12

/-- A transaction word `T[44:0]` of the producer port (30_encoding.md R81). -/
abbrev BusWord := BitVec 45

/-- The channel field `addr[10:4]` (30_encoding.md R83). -/
abbrev Chan := BitVec 7

/-- A phase or an increment, `PW = 16` bits; also one sample, `SW = 16`, and the 16-bit counters (00_scope.md R8). -/
abbrev Half := BitVec 16

/-- A level, a volume target or an envelope constant, `LW = 8` bits (00_scope.md R8). -/
abbrev Level := BitVec 8

end Sys2Proof
end

