-- ==== Sys2Proof/Config.lean ====
section
/-! DEFINITION. What an implementation of SB fixes: the parameters `NCH`, `K`, `SPT_RESET` (spec/00_scope.md R7) and the named
constants of R8. The model has no free value: the spec leaves no result open (spec/93_implementation_defined.md). -/

namespace Sys2Proof

/-- The three open parameters of the model (00_scope.md R7; 92_eei_decisions.md D3, D26). -/
structure Config where
  /-- `NCH`, the channel count -/
  nch : Nat
  /-- `K`, with `CAP = 2^K` -/
  k : Nat
  /-- `SPT_RESET`, the reset value of `SPT` -/
  sptReset : Half
deriving DecidableEq, Repr

/-- The ranges of 00_scope.md R7: `1 <= NCH <= 128`, `1 <= K <= 16`, `1 <= SPT_RESET <= 65535`. -/
def Config.wf (c : Config) : Bool :=
  decide (1 ≤ c.nch) && decide (c.nch ≤ 128) && decide (1 ≤ c.k) && decide (c.k ≤ 16) && decide (c.sptReset ≠ 0#16)

/-- The configuration of `State.reset`: the one of the spec's reset table RS1 (95_test_vectors.md, `NCH = 2`, `K = 3`,
`SPT_RESET = 1`). DESIGN CHOICE, unsafe (log 2): R7 gives `NCH` and `K` no default. -/
def Config.vectorRS1 : Config := ⟨2, 3, 1#16⟩

/-- `SQ_SHIFT`, the de-emphasis of the square waveforms (00_scope.md R8). -/
def sqShift : Nat := 3

/-- `TRI_SHIFT`, the normalising shift of the triangle (00_scope.md R8; 92_eei_decisions.md D7). -/
def triShift : Nat := 4

/-- `ENV_SHIFT`, the shift in both envelope formulas (00_scope.md R8). -/
def envShift : Nat := 8

/-- `HEADROOM`, the constant added to the active count in the mixer's divisor (00_scope.md R8). -/
def headroom : Nat := 1

end Sys2Proof
end

