-- ==== Sys2Proof/Syntax.lean ====
section
/-! DEFINITION. The operations of SB, one constructor per row of spec/opcode_table.json (spec/30_encoding.md R96), and the
pseudo-operations of R95.

A write carries its whole data word, as format W does (R80): which bits of it count is the meaning's business (R86, R87). A read
carries no data: `T[31:0]` is ignored by the decoder (R81). A channel operation carries the channel field `addr[10:4]` (R83). -/

namespace Sys2Proof

/-- The 34 operations that can be issued at a port (30_encoding.md R96). -/
inductive Instr where
  /-- `WR.CTRL` (R100) -/
  | wrCtrl (data : Word)
  /-- `RD.CTRL` (R101) -/
  | rdCtrl
  /-- `WR.STATUS` (R102) -/
  | wrStatus (data : Word)
  /-- `RD.STATUS` (R103) -/
  | rdStatus
  /-- `WR.SPT` (R104) -/
  | wrSpt (data : Word)
  /-- `RD.SPT` (R105) -/
  | rdSpt
  /-- `WR.RENDER` (R178) -/
  | wrRender (data : Word)
  /-- `RD.DIV` (R106) -/
  | rdDiv
  /-- `RD.TICKCNT` (R107) -/
  | rdTickcnt
  /-- `RD.RB_CAP` (R200) -/
  | rdRbCap
  /-- `RD.RB_WR` (R201) -/
  | rdRbWr
  /-- `RD.RB_RD` (R202) -/
  | rdRbRd
  /-- `RD.RB_OCC` (R203) -/
  | rdRbOcc
  /-- `RD.RB_FREE` (R204) -/
  | rdRbFree
  /-- `WR.RB_PUSH` (R193) -/
  | wrRbPush (data : Word)
  /-- `WR.CH_EN` (R120) -/
  | wrChEn (ch : Chan) (data : Word)
  /-- `RD.CH_EN` (R121) -/
  | rdChEn (ch : Chan)
  /-- `WR.CH_WAVE` (R122) -/
  | wrChWave (ch : Chan) (data : Word)
  /-- `RD.CH_WAVE` (R123) -/
  | rdChWave (ch : Chan)
  /-- `WR.CH_VOL` (R150) -/
  | wrChVol (ch : Chan) (data : Word)
  /-- `RD.CH_VOL` (R151) -/
  | rdChVol (ch : Chan)
  /-- `WR.CH_ATK` (R152) -/
  | wrChAtk (ch : Chan) (data : Word)
  /-- `RD.CH_ATK` (R153) -/
  | rdChAtk (ch : Chan)
  /-- `WR.CH_RLS` (R154) -/
  | wrChRls (ch : Chan) (data : Word)
  /-- `RD.CH_RLS` (R155) -/
  | rdChRls (ch : Chan)
  /-- `WR.CH_INC` (R128) -/
  | wrChInc (ch : Chan) (data : Word)
  /-- `RD.CH_INC` (R129) -/
  | rdChInc (ch : Chan)
  /-- `WR.CH_NOTE` (R130) -/
  | wrChNote (ch : Chan) (data : Word)
  /-- `WR.CH_KEYOFF` (R156); its data is ignored -/
  | wrChKeyoff (ch : Chan) (data : Word)
  /-- `WR.CH_RESET` (R134); its data is ignored -/
  | wrChReset (ch : Chan) (data : Word)
  /-- `RD.CH_ACC` (R136) -/
  | rdChAcc (ch : Chan)
  /-- `RD.CH_LEVEL` (R157) -/
  | rdChLevel (ch : Chan)
  /-- `RD.CH_STAT` (R137) -/
  | rdChStat (ch : Chan)
  /-- `POP` (R195) -/
  | pop
deriving DecidableEq, Repr

/-- The pseudo-operations of 30_encoding.md R95. -/
inductive Pseudo where
  | render (n : Half)
  | push (l r : Half)
  | note (ch : Chan) (inc : Half)
  | rest (ch : Chan)
  | keyoff (ch : Chan)
  | chreset (ch : Chan)
  | attach (ch : Chan)
  | stop (ch : Chan)
  | pause (b : Bool)
  | clrflags
deriving DecidableEq, Repr

/-- The channel operand of a channel-register operation (30_encoding.md R83), `none` for the others. -/
def Instr.chan : Instr → Option Chan
  | .wrCtrl _ => none
  | .rdCtrl => none
  | .wrStatus _ => none
  | .rdStatus => none
  | .wrSpt _ => none
  | .rdSpt => none
  | .wrRender _ => none
  | .rdDiv => none
  | .rdTickcnt => none
  | .rdRbCap => none
  | .rdRbWr => none
  | .rdRbRd => none
  | .rdRbOcc => none
  | .rdRbFree => none
  | .wrRbPush _ => none
  | .wrChEn c _ => some c
  | .rdChEn c => some c
  | .wrChWave c _ => some c
  | .rdChWave c => some c
  | .wrChVol c _ => some c
  | .rdChVol c => some c
  | .wrChAtk c _ => some c
  | .rdChAtk c => some c
  | .wrChRls c _ => some c
  | .rdChRls c => some c
  | .wrChInc c _ => some c
  | .rdChInc c => some c
  | .wrChNote c _ => some c
  | .wrChKeyoff c _ => some c
  | .wrChReset c _ => some c
  | .rdChAcc c => some c
  | .rdChLevel c => some c
  | .rdChStat c => some c
  | .pop => none

end Sys2Proof
end

