-- ==== Sys2Proof/WellFormed.lean ====
section
/-! DEFINITION. When an operation names an existing channel: the side condition `ch < NCH` of the channel rows of
spec/opcode_table.json (spec/30_encoding.md R91, R96). The types of the operands carry every other bound, and every value of
every field is legal (R92). An operation that is not well-formed is no illegal encoding: it has the outcome of R91, which its
meaning gives. -/

namespace Sys2Proof

/-- The channel operand, where there is one, selects one of the banks `0 .. NCH-1` (30_encoding.md R83, R96). -/
def Instr.wf (nch : Nat) (i : Instr) : Bool :=
  match i.chan with
  | none => true
  | some c => decide (c.toNat < nch)

end Sys2Proof
end

