-- ==== Sys2Proof/Decode.lean ====
section
/-! DEFINITION. The operation formats and the address decode of spec/30_encoding.md: from a request at a port to an operation of
the table, total, rejecting by name every transaction word that matches no row; and the encoder. -/

namespace Sys2Proof

/-- A request at one of the two ports (30_encoding.md R80, R81). -/
inductive Request where
  /-- a transaction word at the producer port, formats W and R -/
  | bus (t : BusWord)
  /-- a pop request at the consumer port, format P -/
  | pop
deriving DecidableEq, Repr

/-- Why a transaction word matches no row of the table (30_encoding.md R88 to R90). None of these is a fault: the port gives each
the outcome of its rule (`Sys2Proof.Machine.unmatched`). -/
inductive Reject where
  /-- a read of a reserved address: answered 0 (R88) -/
  | reservedRead
  /-- a write to a reserved address: ignored (R88) -/
  | reservedWrite
  /-- a write to a read-only register: ignored (R89) -/
  | readOnlyWrite
  /-- a read of a write-only register: answered 0, no action (R90) -/
  | writeOnlyRead
deriving DecidableEq, Repr

/-- The transaction word `T[44] = rw`, `T[43:32] = addr`, `T[31:0] = data` (30_encoding.md R81). -/
def busWord (rw : Bool) (addr : Addr) (data : Word) : BusWord :=
  (BitVec.ofBool rw ++ addr) ++ data

/-- `rw = T[44]`: 1 = write, 0 = read (30_encoding.md R81). -/
def busRw (t : BusWord) : Bool := t.getLsbD 44

/-- `addr = T[43:32]` (30_encoding.md R81). -/
def busAddr (t : BusWord) : Addr := t.extractLsb' 32 12

/-- `data = T[31:0]` (30_encoding.md R81). -/
def busData (t : BusWord) : Word := t.extractLsb' 0 32

/-- The word address of register `off` of channel `c`, `0x800 + 16*c + off`, as the fields `addr[11] = 1`, `addr[10:4]`,
`addr[3:0]` (30_encoding.md R83). -/
def chanAddr (c : Chan) (off : BitVec 4) : Addr := (1#1 ++ c) ++ off

/-- `ch = addr[10:4]` (30_encoding.md R83). -/
def addrChan (a : Addr) : Chan := a.extractLsb' 4 7

/-- `off = addr[3:0]` (30_encoding.md R83). -/
def addrOff (a : Addr) : BitVec 4 := a.extractLsb' 0 4

/-- A register that can be read and written. -/
def readWrite (rw : Bool) (r w : Instr) : Except Reject Instr := if rw then .ok w else .ok r

/-- A read-only register: a write is R89's. -/
def readOnly (rw : Bool) (r : Instr) : Except Reject Instr := if rw then .error .readOnlyWrite else .ok r

/-- A write-only register: a read is R90's. -/
def writeOnly (rw : Bool) (w : Instr) : Except Reject Instr := if rw then .ok w else .error .writeOnlyRead

/-- A reserved address (R88). -/
def reserved (rw : Bool) : Except Reject Instr := if rw then .error .reservedWrite else .error .reservedRead

/-- The global region, decoded on all 12 address bits (30_encoding.md R82, R84). -/
def decodeGlobal (rw : Bool) (addr : Nat) (d : Word) : Except Reject Instr :=
  match addr with
  | 0x000 => readWrite rw .rdCtrl (.wrCtrl d)
  | 0x001 => readWrite rw .rdStatus (.wrStatus d)
  | 0x002 => readWrite rw .rdSpt (.wrSpt d)
  | 0x003 => writeOnly rw (.wrRender d)
  | 0x004 => readOnly rw .rdDiv
  | 0x005 => readOnly rw .rdTickcnt
  | 0x010 => readOnly rw .rdRbCap
  | 0x011 => readOnly rw .rdRbWr
  | 0x012 => readOnly rw .rdRbRd
  | 0x013 => readOnly rw .rdRbOcc
  | 0x014 => readOnly rw .rdRbFree
  | 0x015 => writeOnly rw (.wrRbPush d)
  | _ => reserved rw

/-- The channel region: register `off` of the bank of channel `c` (30_encoding.md R83, R85). -/
def decodeChannel (rw : Bool) (c : Chan) (off : Nat) (d : Word) : Except Reject Instr :=
  match off with
  | 0x0 => readWrite rw (.rdChEn c) (.wrChEn c d)
  | 0x1 => readWrite rw (.rdChWave c) (.wrChWave c d)
  | 0x2 => readWrite rw (.rdChVol c) (.wrChVol c d)
  | 0x3 => readWrite rw (.rdChAtk c) (.wrChAtk c d)
  | 0x4 => readWrite rw (.rdChRls c) (.wrChRls c d)
  | 0x5 => readWrite rw (.rdChInc c) (.wrChInc c d)
  | 0x6 => writeOnly rw (.wrChNote c d)
  | 0x7 => writeOnly rw (.wrChKeyoff c d)
  | 0x8 => writeOnly rw (.wrChReset c d)
  | 0x9 => readOnly rw (.rdChAcc c)
  | 0xA => readOnly rw (.rdChLevel c)
  | 0xB => readOnly rw (.rdChStat c)
  | _ => reserved rw

/-- `addr[11]` selects the region (30_encoding.md R82, R83). -/
def decodeAccess (rw : Bool) (addr : Addr) (d : Word) : Except Reject Instr :=
  if addr.getLsbD 11 then decodeChannel rw (addrChan addr) (addrOff addr).toNat d else decodeGlobal rw addr.toNat d

/-- The operation a request stands for (30_encoding.md R80 to R85). -/
def decode : Request → Except Reject Instr
  | .bus t => decodeAccess (busRw t) (busAddr t) (busData t)
  | .pop => .ok .pop

/-- A write of a global register (30_encoding.md R80, R84). -/
def wrGlobal (addr : Addr) (d : Word) : Request := .bus (busWord true addr d)

/-- A read of a global register; its ignored data bits are 0, as 95_test_vectors.md writes them (30_encoding.md R80, R84). -/
def rdGlobal (addr : Addr) : Request := .bus (busWord false addr 0#32)

/-- A write of register `off` of channel `c` (30_encoding.md R80, R85). -/
def wrChannel (c : Chan) (off : BitVec 4) (d : Word) : Request := .bus (busWord true (chanAddr c off) d)

/-- A read of register `off` of channel `c`; its ignored data bits are 0 (30_encoding.md R80, R85). -/
def rdChannel (c : Chan) (off : BitVec 4) : Request := .bus (busWord false (chanAddr c off) 0#32)

/-- The request that issues an operation (30_encoding.md R80, R81, R84, R85). -/
def encode : Instr → Request
  | .wrCtrl d => wrGlobal 0x000#12 d
  | .rdCtrl => rdGlobal 0x000#12
  | .wrStatus d => wrGlobal 0x001#12 d
  | .rdStatus => rdGlobal 0x001#12
  | .wrSpt d => wrGlobal 0x002#12 d
  | .rdSpt => rdGlobal 0x002#12
  | .wrRender d => wrGlobal 0x003#12 d
  | .rdDiv => rdGlobal 0x004#12
  | .rdTickcnt => rdGlobal 0x005#12
  | .rdRbCap => rdGlobal 0x010#12
  | .rdRbWr => rdGlobal 0x011#12
  | .rdRbRd => rdGlobal 0x012#12
  | .rdRbOcc => rdGlobal 0x013#12
  | .rdRbFree => rdGlobal 0x014#12
  | .wrRbPush d => wrGlobal 0x015#12 d
  | .wrChEn c d => wrChannel c 0x0#4 d
  | .rdChEn c => rdChannel c 0x0#4
  | .wrChWave c d => wrChannel c 0x1#4 d
  | .rdChWave c => rdChannel c 0x1#4
  | .wrChVol c d => wrChannel c 0x2#4 d
  | .rdChVol c => rdChannel c 0x2#4
  | .wrChAtk c d => wrChannel c 0x3#4 d
  | .rdChAtk c => rdChannel c 0x3#4
  | .wrChRls c d => wrChannel c 0x4#4 d
  | .rdChRls c => rdChannel c 0x4#4
  | .wrChInc c d => wrChannel c 0x5#4 d
  | .rdChInc c => rdChannel c 0x5#4
  | .wrChNote c d => wrChannel c 0x6#4 d
  | .wrChKeyoff c d => wrChannel c 0x7#4 d
  | .wrChReset c d => wrChannel c 0x8#4 d
  | .rdChAcc c => rdChannel c 0x9#4
  | .rdChLevel c => rdChannel c 0xA#4
  | .rdChStat c => rdChannel c 0xB#4
  | .pop => .pop

/-- One row of the machine-readable table: a transaction matches when `(T AND mask) = match` (30_encoding.md R81, R96). -/
structure TableRow where
  mnemonic : String
  pattern : BusWord
  mask : BusWord
deriving DecidableEq, Repr

/-- The mask of a row of the global region: `rw` and all of `addr` (30_encoding.md R82). -/
def globalMask : BusWord := 0x1FFF00000000#45

/-- The mask of a row of the channel region: `T[44]`, `addr[11]` and `addr[3:0]` (30_encoding.md R96). -/
def channelMask : BusWord := 0x180F00000000#45

/-- The 33 producer-port rows of spec/opcode_table.json, in its order, `match` and `mask` as it prints them. -/
def opcodeTable : List TableRow :=
  [ ⟨"WR.CTRL", 0x100000000000#45, globalMask⟩,
    ⟨"RD.CTRL", 0x000000000000#45, globalMask⟩,
    ⟨"WR.STATUS", 0x100100000000#45, globalMask⟩,
    ⟨"RD.STATUS", 0x000100000000#45, globalMask⟩,
    ⟨"WR.SPT", 0x100200000000#45, globalMask⟩,
    ⟨"RD.SPT", 0x000200000000#45, globalMask⟩,
    ⟨"WR.RENDER", 0x100300000000#45, globalMask⟩,
    ⟨"RD.DIV", 0x000400000000#45, globalMask⟩,
    ⟨"RD.TICKCNT", 0x000500000000#45, globalMask⟩,
    ⟨"RD.RB_CAP", 0x001000000000#45, globalMask⟩,
    ⟨"RD.RB_WR", 0x001100000000#45, globalMask⟩,
    ⟨"RD.RB_RD", 0x001200000000#45, globalMask⟩,
    ⟨"RD.RB_OCC", 0x001300000000#45, globalMask⟩,
    ⟨"RD.RB_FREE", 0x001400000000#45, globalMask⟩,
    ⟨"WR.RB_PUSH", 0x101500000000#45, globalMask⟩,
    ⟨"WR.CH_EN", 0x180000000000#45, channelMask⟩,
    ⟨"RD.CH_EN", 0x080000000000#45, channelMask⟩,
    ⟨"WR.CH_WAVE", 0x180100000000#45, channelMask⟩,
    ⟨"RD.CH_WAVE", 0x080100000000#45, channelMask⟩,
    ⟨"WR.CH_VOL", 0x180200000000#45, channelMask⟩,
    ⟨"RD.CH_VOL", 0x080200000000#45, channelMask⟩,
    ⟨"WR.CH_ATK", 0x180300000000#45, channelMask⟩,
    ⟨"RD.CH_ATK", 0x080300000000#45, channelMask⟩,
    ⟨"WR.CH_RLS", 0x180400000000#45, channelMask⟩,
    ⟨"RD.CH_RLS", 0x080400000000#45, channelMask⟩,
    ⟨"WR.CH_INC", 0x180500000000#45, channelMask⟩,
    ⟨"RD.CH_INC", 0x080500000000#45, channelMask⟩,
    ⟨"WR.CH_NOTE", 0x180600000000#45, channelMask⟩,
    ⟨"WR.CH_KEYOFF", 0x180700000000#45, channelMask⟩,
    ⟨"WR.CH_RESET", 0x180800000000#45, channelMask⟩,
    ⟨"RD.CH_ACC", 0x080900000000#45, channelMask⟩,
    ⟨"RD.CH_LEVEL", 0x080A00000000#45, channelMask⟩,
    ⟨"RD.CH_STAT", 0x080B00000000#45, channelMask⟩ ]

/-- The name of an operation, as the table spells it. -/
def Instr.mnemonic : Instr → String
  | .wrCtrl _ => "WR.CTRL"
  | .rdCtrl => "RD.CTRL"
  | .wrStatus _ => "WR.STATUS"
  | .rdStatus => "RD.STATUS"
  | .wrSpt _ => "WR.SPT"
  | .rdSpt => "RD.SPT"
  | .wrRender _ => "WR.RENDER"
  | .rdDiv => "RD.DIV"
  | .rdTickcnt => "RD.TICKCNT"
  | .rdRbCap => "RD.RB_CAP"
  | .rdRbWr => "RD.RB_WR"
  | .rdRbRd => "RD.RB_RD"
  | .rdRbOcc => "RD.RB_OCC"
  | .rdRbFree => "RD.RB_FREE"
  | .wrRbPush _ => "WR.RB_PUSH"
  | .wrChEn _ _ => "WR.CH_EN"
  | .rdChEn _ => "RD.CH_EN"
  | .wrChWave _ _ => "WR.CH_WAVE"
  | .rdChWave _ => "RD.CH_WAVE"
  | .wrChVol _ _ => "WR.CH_VOL"
  | .rdChVol _ => "RD.CH_VOL"
  | .wrChAtk _ _ => "WR.CH_ATK"
  | .rdChAtk _ => "RD.CH_ATK"
  | .wrChRls _ _ => "WR.CH_RLS"
  | .rdChRls _ => "RD.CH_RLS"
  | .wrChInc _ _ => "WR.CH_INC"
  | .rdChInc _ => "RD.CH_INC"
  | .wrChNote _ _ => "WR.CH_NOTE"
  | .wrChKeyoff _ _ => "WR.CH_KEYOFF"
  | .wrChReset _ _ => "WR.CH_RESET"
  | .rdChAcc _ => "RD.CH_ACC"
  | .rdChLevel _ => "RD.CH_LEVEL"
  | .rdChStat _ => "RD.CH_STAT"
  | .pop => "POP"

/-- A request given as a number of `nbits` bits, bit 0 least significant: at most one byte is the pop request of format P, whose one
bit is bit 0; more is a transaction word `T[44:0]` (30_encoding.md R81). The bits above bit 0 and above `T[44]`, which only fill up
the last byte, do not count. DESIGN CHOICE, safe (log 9): the 45-bit word "is a device of the table, not a wire format". -/
def Request.ofBits (nbits w : Nat) : Option Request :=
  if nbits ≤ 8 then (if w % 2 = 1 then some .pop else none) else some (.bus (BitVec.ofNat 45 w))

/-- The operation the decoder reads from an encoding given as a number (log 9). -/
def decodeTableWord (nbits w : Nat) : Option Instr :=
  match Request.ofBits nbits w with
  | none => none
  | some r =>
    match decode r with
    | .ok i => some i
    | .error _ => none

end Sys2Proof
end

