-- ==== Sys2Proof/Machine/State.lean ====
section
/-! DEFINITION. The state of SB (spec/10_state.md R20, "Nothing else is state"), its parameters (R21), the model's own port fields, and
the reset state (R56, R281). -/

namespace Sys2Proof.Machine

/-- Faults: SB has none. "SB raises no exception" (60_exceptions.md R250), so the type is empty and every step of the model is a
next state (log 15, safe). -/
inductive Fault where
deriving DecidableEq, Repr

/-- Refusals. No arm of `exec` and no meaning answers with one: every operation of SB has a defined outcome (60_exceptions.md R250). -/
inductive Refusal where
  /-- raised by an arm of `exec` whose operation has no meaning yet; safe. No arm raises it. -/
  | notModelled (mnemonic : String)
deriving DecidableEq, Repr

/-- The ring storage `MEM` as (slot, frame) pairs: slots strictly rising, no slot listed with the value an unlisted slot reads as.
An unlisted slot reads `0x00000000`, its reset value (10_state.md R31, R56; log 11). -/
abbrev Memory := List (Nat × Word)

/-- The canonical form of `Memory`. -/
abbrev Memory.wf (m : Memory) : Prop :=
  List.Pairwise (fun x y => x.1 < y.1) m ∧ ∀ x ∈ m, x.2 ≠ 0#32

/-- The nine fields of one channel's bank (10_state.md R22, R36 to R45). -/
structure Bank where
  /-- `EN`, channel enable (R36) -/
  en : Bool
  /-- `WAVE`, waveform type: 0 `SQ25`, 1 `SQ50`, 2 `SQ75`, 3 `TRI` (R37) -/
  wave : BitVec 2
  /-- `VOL`, the volume target (R38) -/
  vol : Level
  /-- `ATK`, the attack constant (R39) -/
  atk : Level
  /-- `RLS`, the release constant (R40) -/
  rls : Level
  /-- `INC`, the frequency increment (R41) -/
  inc : Half
  /-- `ACC`, the phase accumulator (R42) -/
  acc : Half
  /-- `LEVEL`, the envelope level (R43) -/
  level : Level
  /-- `RELF`, the release flag (R45) -/
  relf : Bool
deriving DecidableEq, Repr

/-- A bank's reset state: all nine fields 0 (10_state.md R56). -/
def Bank.reset : Bank :=
  { en := false, wave := 0#2, vol := 0#8, atk := 0#8, rls := 0#8, inc := 0#16, acc := 0#16, level := 0#8, relf := false }

/-- Whose step comes next: an agent of 20_memory.md R70, or the reset event of 70_reset_and_hazards.md R280. -/
inductive Turn where
  | host
  | engine
  | consumer
  | reset
deriving DecidableEq, Repr

/-- The state of SB, its parameters, and the model's own fields for the two ports and the environment behind them. -/
structure State where
  /-- `PAUSE` (R24) -/
  pause : Bool
  /-- `OVR`, overrun (R25) -/
  ovr : Bool
  /-- `UDR`, underrun (R25) -/
  udr : Bool
  /-- `CFGERR`, configuration error (R25) -/
  cfgerr : Bool
  /-- `SPT`, samples per tick (R27) -/
  spt : Half
  /-- `DIV`, the position inside the current tick (R28) -/
  div : Half
  /-- `TICKCNT`, tick steps performed, modulo 65536 (R29) -/
  tickcnt : Half
  /-- `RCNT`, frame steps still owed by the current burst (R30) -/
  rcnt : Half
  /-- `MEM`, the ring storage (R31) -/
  mem : Memory
  /-- `WR`, the write index, `0 .. CAP-1` (R32; log 12) -/
  wr : Nat
  /-- `RD`, the read index, `0 .. CAP-1` (R33; log 12) -/
  rd : Nat
  /-- `LAST`, the frame of the most recent non-empty `POP` (R34) -/
  last : Word
  /-- the per-channel banks `0 .. NCH-1` (R22, R36 to R45); their number is the parameter `NCH` (log 1) -/
  banks : List Bank
  /-- the parameter `K` (00_scope.md R7; log 1): no step changes it -/
  k : Nat
  /-- the parameter `SPT_RESET` (00_scope.md R7; log 1): no step changes it -/
  sptReset : Half
  /-- the model's own: the last answer `rdata` of the producer port (30_encoding.md R80; log 6) -/
  rdata : Word
  /-- the model's own: the last answer `frame` of the consumer port (30_encoding.md R80; log 6) -/
  frame : Word
  /-- the model's own: the transactions the host has issued, oldest first (20_memory.md R70; log 3) -/
  bus : List BusWord
  /-- the model's own: the number of pop requests the consumer has issued (20_memory.md R70; log 3) -/
  pops : Nat
  /-- the model's own: whose turns come next (20_memory.md R71; log 4) -/
  sched : List Turn
deriving DecidableEq, Repr

/-- `NCH`: as many channels as there are banks (00_scope.md R7, 10_state.md R22; log 1). -/
def State.nch (s : State) : Nat := s.banks.length

/-- `CAP = 2^K` (00_scope.md R7). -/
def State.cap (s : State) : Nat := 2 ^ s.k

/-- The parameters a state was built with. -/
def State.config (s : State) : Config := ⟨s.nch, s.k, s.sptReset⟩

/-- The reset state for given parameters (10_state.md R56; 70_reset_and_hazards.md R281): everything 0 but `SPT = SPT_RESET` and
`WR = CAP - 1`; nothing waits at the ports (log 3, log 4, log 6). -/
def State.resetOf (c : Config) : State :=
  { pause := false
    ovr := false
    udr := false
    cfgerr := false
    spt := c.sptReset
    div := 0#16
    tickcnt := 0#16
    rcnt := 0#16
    mem := []
    wr := 2 ^ c.k - 1
    rd := 0
    last := 0#32
    banks := List.replicate c.nch Bank.reset
    k := c.k
    sptReset := c.sptReset
    rdata := 0#32
    frame := 0#32
    bus := []
    pops := 0
    sched := [] }

/-- The machine right after reset, with the parameters of the spec's reset table RS1 (DESIGN CHOICE, unsafe, log 2). -/
def State.reset : State := State.resetOf Config.vectorRS1

end Sys2Proof.Machine
end

