-- ==== Sys2Proof/Machine/Operands.lean ====
section
/-! DEFINITION. The operand forms of SB (spec/30_encoding.md R86, R87), what a read answers with, and the arithmetic primitives of
spec/00_scope.md R10. -/

namespace Sys2Proof.Machine

/-- A one-bit operand, `data[i]` (R86). -/
def fieldBit (d : Word) (i : Nat) : Bool := d.getLsbD i

/-- `data[1:0]` (R86). -/
def field2 (d : Word) : BitVec 2 := d.extractLsb' 0 2

/-- `data[7:0]` (R86). -/
def field8 (d : Word) : Level := d.extractLsb' 0 8

/-- `data[15:0]` (R86). -/
def field16 (d : Word) : Half := d.extractLsb' 0 16

/-- `zext_32(v)` (00_scope.md R9): a register in the low bits of its word, the others 0 (30_encoding.md R87). -/
def zext32 {n : Nat} (v : BitVec n) : Word := v.setWidth 32

/-- `zext_32` of a one-bit register. -/
def zextBit (b : Bool) : Word := zext32 (BitVec.ofBool b)

/-- `a >>a n`, `floor(a / 2^n)` for every sign of `a` (00_scope.md R10): Lean's integer division rounds down for a positive divisor. -/
def asr (a : Int) (n : Nat) : Int := a / (2 ^ n : Nat)

/-- `tdiv(a, b) = sign(a) * floor(|a| / b)` for `b > 0` (00_scope.md R10). -/
def tdiv (a : Int) (b : Nat) : Int := a.sign * ((a.natAbs / b : Nat) : Int)

/-- The four waveform types (10_state.md R37). -/
inductive Wave where
  | sq25
  | sq50
  | sq75
  | tri
deriving DecidableEq, Repr

/-- The waveform type a value of `WAVE[c]` selects; all four codes are used (10_state.md R37). -/
def Wave.ofCode (w : BitVec 2) : Wave :=
  match w.toNat with
  | 0 => .sq25
  | 1 => .sq50
  | 2 => .sq75
  | _ => .tri

end Sys2Proof.Machine
end

