-- ==== Sys2Proof/Machine/Flags.lean ====
section
/-! DEFINITION. The three sticky flags, SB's only status flags (spec/10_state.md R25, R26; spec/60_exceptions.md R253). Nothing reads
a flag but `RD.STATUS`. -/

namespace Sys2Proof.Machine

/-- `OVR <- 1`: a push or a frame step found no free slot (44_ring_buffer.md R192, 43_mixer.md R176). -/
def setOvr (s : State) : State := { s with ovr := true }

/-- `UDR <- 1`: a `POP` found no occupied slot (44_ring_buffer.md R196). -/
def setUdr (s : State) : State := { s with udr := true }

/-- `CFGERR <- 1`: a write of zero to `SPT` (40_global_control.md R104). -/
def setCfgerr (s : State) : State := { s with cfgerr := true }

/-- Write-1-to-clear: a flag whose mask bit is 1 becomes 0, another keeps its value (40_global_control.md R102). -/
def clearFlags (d : Word) (s : State) : State :=
  { s with
    ovr := s.ovr && !fieldBit d 0
    udr := s.udr && !fieldBit d 1
    cfgerr := s.cfgerr && !fieldBit d 2 }

/-- The `STATUS` word, `zext_32({CFGERR, UDR, OVR})` (40_global_control.md R103). -/
def statusWord (s : State) : Word :=
  zext32 ((BitVec.ofBool s.cfgerr ++ BitVec.ofBool s.udr) ++ BitVec.ofBool s.ovr)

end Sys2Proof.Machine
end

