-- ==== Sys2Proof/Machine/Ops.lean ====
section
/-! DEFINITION. The operations the meanings share: the ring storage, the channel banks, the answers of the two ports, occupancy, `Push`
and the delivery of a frame.

TAKING AN EXCEPTION and returning from one: SB has neither ("There is no trap, so no state is saved, no mode or mask changes, no vector
table, no handler address", spec/60_exceptions.md R256, R257). What stands in their place is one sticky flag bit (R251), set by the
operations of Flags.lean. -/

namespace Sys2Proof.Machine

/-- The frame in slot `a`; an unlisted slot reads the reset value `0x00000000` (10_state.md R31). -/
def Memory.read (m : Memory) (a : Nat) : Word :=
  match m with
  | [] => 0#32
  | x :: r => if x.1 = a then x.2 else Memory.read r a

/-- `MEM[a] <- v`, in canonical form: writing the value an unlisted slot reads as removes the entry (log 11). -/
def Memory.write (m : Memory) (a : Nat) (v : Word) : Memory :=
  match m with
  | [] => if v = 0#32 then [] else [(a, v)]
  | x :: r =>
    if a < x.1 then (if v = 0#32 then x :: r else (a, v) :: x :: r)
    else if a = x.1 then (if v = 0#32 then r else (a, v) :: r)
    else x :: Memory.write r a v

/-- The bank of channel `c`, none for `c >= NCH` (10_state.md R22; 30_encoding.md R91). -/
def bank? (s : State) (c : Chan) : Option Bank := s.banks[c.toNat]?

/-- A write to a field of bank `c`; for `c >= NCH` nothing changes (30_encoding.md R91). -/
def updateBank (c : Chan) (f : Bank → Bank) (s : State) : State := { s with banks := s.banks.modify c.toNat f }

/-- What a read of a register of bank `c` delivers; for `c >= NCH` it is `0x00000000` (30_encoding.md R91). -/
def bankWord (c : Chan) (f : Bank → Word) (s : State) : Word :=
  match bank? s c with
  | some b => f b
  | none => 0#32

/-- `rdata <- v`: the producer port answers a read; nothing else changes (20_memory.md R64; 30_encoding.md R80; log 6). -/
def answer (v : Word) (s : State) : State := { s with rdata := v }

/-- `OCC = (WR - RD) mod CAP`, never negative (44_ring_buffer.md R190; 00_scope.md R10). -/
def occ (s : State) : Nat := (((s.wr : Int) - (s.rd : Int)) % (s.cap : Int)).toNat

/-- `FREE = CAP - 1 - OCC` (44_ring_buffer.md R190). -/
def free (s : State) : Nat := s.cap - 1 - occ s

/-- `Push(f)`: on a full buffer `OVR <- 1` and the frame is dropped; else `MEM[WR] <- f`, `WR <- (WR + 1) mod CAP`
(44_ring_buffer.md R191, R192). -/
def push (f : Word) (s : State) : State :=
  if free s = 0 then setOvr s
  else { s with mem := s.mem.write s.wr f, wr := (s.wr + 1) % s.cap }

/-- `POP`'s effect: on an empty buffer `UDR <- 1` and the answer is `LAST`; else the answer is `MEM[RD]`, kept in `LAST`, and
`RD <- (RD + 1) mod CAP` (44_ring_buffer.md R195, R196). -/
def deliver (s : State) : State :=
  if occ s = 0 then { setUdr s with frame := s.last }
  else { s with frame := s.mem.read s.rd, last := s.mem.read s.rd, rd := (s.rd + 1) % s.cap }

end Sys2Proof.Machine
end

