-- ==== Sys2Proof/Machine/GlobalControl.lean ====
section
/-! DEFINITION. Global control and status (spec/40_global_control.md R100 to R107). -/

namespace Sys2Proof.Machine

/-- `WR.CTRL`: `PAUSE <- data[0]` (R100). -/
def execWrCtrl (d : Word) (s : State) : Host.Outcome State Fault Refusal := .next { s with pause := fieldBit d 0 }

/-- `RD.CTRL`: `rdata <- zext_32(PAUSE)` (R101). -/
def execRdCtrl (s : State) : Host.Outcome State Fault Refusal := .next (answer (zextBit s.pause) s)

/-- `WR.STATUS`: clear the flags selected by `data[2:0]` (R102). -/
def execWrStatus (d : Word) (s : State) : Host.Outcome State Fault Refusal := .next (clearFlags d s)

/-- `RD.STATUS`: `rdata <- zext_32({CFGERR, UDR, OVR})` (R103). -/
def execRdStatus (s : State) : Host.Outcome State Fault Refusal := .next (answer (statusWord s) s)

/-- `WR.SPT`: `if v = 0 then CFGERR <- 1 else SPT <- v`, with `v = data[15:0]` (R104). -/
def execWrSpt (d : Word) (s : State) : Host.Outcome State Fault Refusal :=
  .next (if field16 d = 0#16 then setCfgerr s else { s with spt := field16 d })

/-- `RD.SPT`: `rdata <- zext_32(SPT)` (R105). -/
def execRdSpt (s : State) : Host.Outcome State Fault Refusal := .next (answer (zext32 s.spt) s)

/-- `RD.DIV`: `rdata <- zext_32(DIV)` (R106). -/
def execRdDiv (s : State) : Host.Outcome State Fault Refusal := .next (answer (zext32 s.div) s)

/-- `RD.TICKCNT`: `rdata <- zext_32(TICKCNT)` (R107). -/
def execRdTickcnt (s : State) : Host.Outcome State Fault Refusal := .next (answer (zext32 s.tickcnt) s)

end Sys2Proof.Machine
end

