-- ==== Sys2Proof/Machine/Oscillator.lean ====
section
/-! DEFINITION. The oscillator bank (spec/41_oscillator.md): the channel register operations R120 to R137, the phase advance R140 and the
contribution R142 to R145. -/

namespace Sys2Proof.Machine

/-- A channel is active iff `EN = 1 and INC != 0` (43_mixer.md R171; R137). -/
def Bank.active (b : Bank) : Bool := b.en && b.inc != 0#16

/-- `OscAdvance`: `ACC <- (ACC + INC) mod 2^16` for an active channel; another keeps its phase (R140). -/
def Bank.advance (b : Bank) : Bank := if b.active then { b with acc := b.acc + b.inc } else b

/-- `NegSel`: 1 selects the negative half of the cycle (R143). -/
def Bank.negSel (b : Bank) : Bool :=
  match Wave.ofCode b.wave with
  | .sq25 => b.acc.getLsbD 15 || b.acc.getLsbD 14
  | .sq50 => b.acc.getLsbD 15
  | .sq75 => b.acc.getLsbD 15 && b.acc.getLsbD 14
  | .tri => b.acc.getLsbD 15

/-- The fold of the triangle: with `s = p[14:12]`, `7 - s` if `s[2] = 1`, else `s` (R145). -/
def Bank.fold (b : Bank) : Nat :=
  let s := b.acc.extractLsb' 12 3
  if s.getLsbD 2 then 7 - s.toNat else s.toNat

/-- `Magnitude`: `LEVEL >> 3` for the squares (R144), `(LEVEL * f) >> 4` for the triangle (R145). -/
def Bank.magnitude (b : Bank) : Nat :=
  match Wave.ofCode b.wave with
  | .sq25 => b.level.toNat >>> sqShift
  | .sq50 => b.level.toNat >>> sqShift
  | .sq75 => b.level.toNat >>> sqShift
  | .tri => (b.level.toNat * b.fold) >>> triShift

/-- `Contribution`: the magnitude with the selected sign (R142). -/
def Bank.contribution (b : Bank) : Int := if b.negSel then -(b.magnitude : Int) else (b.magnitude : Int)

/-- The `CH_STAT` word, `zext_32({active, RELF})` (R137). -/
def Bank.statWord (b : Bank) : Word := zext32 (BitVec.ofBool b.active ++ BitVec.ofBool b.relf)

/-- `WR.CH_EN`: `EN[c] <- data[0]` (R120). -/
def execWrChEn (c : Chan) (d : Word) (s : State) : Host.Outcome State Fault Refusal :=
  .next (updateBank c (fun b => { b with en := fieldBit d 0 }) s)

/-- `RD.CH_EN`: `rdata <- zext_32(EN[c])` (R121). -/
def execRdChEn (c : Chan) (s : State) : Host.Outcome State Fault Refusal :=
  .next (answer (bankWord c (fun b => zextBit b.en) s) s)

/-- `WR.CH_WAVE`: `WAVE[c] <- data[1:0]` (R122). -/
def execWrChWave (c : Chan) (d : Word) (s : State) : Host.Outcome State Fault Refusal :=
  .next (updateBank c (fun b => { b with wave := field2 d }) s)

/-- `RD.CH_WAVE`: `rdata <- zext_32(WAVE[c])` (R123). -/
def execRdChWave (c : Chan) (s : State) : Host.Outcome State Fault Refusal :=
  .next (answer (bankWord c (fun b => zext32 b.wave) s) s)

/-- `WR.CH_INC`: `INC[c] <- data[15:0]` (R128). -/
def execWrChInc (c : Chan) (d : Word) (s : State) : Host.Outcome State Fault Refusal :=
  .next (updateBank c (fun b => { b with inc := field16 d }) s)

/-- `RD.CH_INC`: `rdata <- zext_32(INC[c])` (R129). -/
def execRdChInc (c : Chan) (s : State) : Host.Outcome State Fault Refusal :=
  .next (answer (bankWord c (fun b => zext32 b.inc) s) s)

/-- `WR.CH_NOTE`: `INC[c] <- data[15:0]; ACC[c] <- 0; LEVEL[c] <- 0; RELF[c] <- 0` (R130; the attack-start level, 10_state.md R44). -/
def execWrChNote (c : Chan) (d : Word) (s : State) : Host.Outcome State Fault Refusal :=
  .next (updateBank c (fun b => { b with inc := field16 d, acc := 0#16, level := 0#8, relf := false }) s)

/-- `WR.CH_RESET`: all nine fields of the bank to 0; the data is ignored (R134). -/
def execWrChReset (c : Chan) (_d : Word) (s : State) : Host.Outcome State Fault Refusal :=
  .next (updateBank c (fun _ => Bank.reset) s)

/-- `RD.CH_ACC`: `rdata <- zext_32(ACC[c])` (R136). -/
def execRdChAcc (c : Chan) (s : State) : Host.Outcome State Fault Refusal :=
  .next (answer (bankWord c (fun b => zext32 b.acc) s) s)

/-- `RD.CH_STAT`: `rdata <- zext_32({active, RELF[c]})` (R137). -/
def execRdChStat (c : Chan) (s : State) : Host.Outcome State Fault Refusal :=
  .next (answer (bankWord c Bank.statWord s) s)

end Sys2Proof.Machine
end

