-- ==== Sys2Proof/Machine/Envelope.lean ====
section
/-! DEFINITION. The envelope generator (spec/42_envelope.md): its register operations R150 to R157 and the internal step `TICK` R161. -/

namespace Sys2Proof.Machine

/-- The attack phase: `LEVEL + (((VOL - LEVEL) * ATK) >>a 8)` in integers (R161). It stays in `0 .. 255` (R163). -/
def Bank.attackLevel (b : Bank) : Int :=
  (b.level.toNat : Int) + asr (((b.vol.toNat : Int) - (b.level.toNat : Int)) * (b.atk.toNat : Int)) envShift

/-- The decrement of the release phase: `max(1, (LEVEL * RLS) >> 8)` (R161). -/
def Bank.releaseStep (b : Bank) : Nat := max 1 ((b.level.toNat * b.rls.toNat) >>> envShift)

/-- One channel's part of `TICK`: attack while `RELF = 0`; after the release trigger a decrement while `LEVEL > 0`; nothing for a
disabled channel (R161). -/
def Bank.tick (b : Bank) : Bank :=
  if b.en then
    if b.relf then
      if 0 < b.level.toNat then { b with level := BitVec.ofNat 8 (b.level.toNat - b.releaseStep) } else b
    else { b with level := BitVec.ofInt 8 b.attackLevel }
  else b

/-- `TICK`: one envelope update of every channel, `TICKCNT <- (TICKCNT + 1) mod 2^16` (R161). -/
def tickStep (s : State) : State := { s with banks := s.banks.map Bank.tick, tickcnt := s.tickcnt + 1#16 }

/-- `WR.CH_VOL`: `VOL[c] <- data[7:0]` (R150). -/
def execWrChVol (c : Chan) (d : Word) (s : State) : Host.Outcome State Fault Refusal :=
  .next (updateBank c (fun b => { b with vol := field8 d }) s)

/-- `RD.CH_VOL`: `rdata <- zext_32(VOL[c])` (R151). -/
def execRdChVol (c : Chan) (s : State) : Host.Outcome State Fault Refusal :=
  .next (answer (bankWord c (fun b => zext32 b.vol) s) s)

/-- `WR.CH_ATK`: `ATK[c] <- data[7:0]` (R152). -/
def execWrChAtk (c : Chan) (d : Word) (s : State) : Host.Outcome State Fault Refusal :=
  .next (updateBank c (fun b => { b with atk := field8 d }) s)

/-- `RD.CH_ATK`: `rdata <- zext_32(ATK[c])` (R153). -/
def execRdChAtk (c : Chan) (s : State) : Host.Outcome State Fault Refusal :=
  .next (answer (bankWord c (fun b => zext32 b.atk) s) s)

/-- `WR.CH_RLS`: `RLS[c] <- data[7:0]` (R154). -/
def execWrChRls (c : Chan) (d : Word) (s : State) : Host.Outcome State Fault Refusal :=
  .next (updateBank c (fun b => { b with rls := field8 d }) s)

/-- `RD.CH_RLS`: `rdata <- zext_32(RLS[c])` (R155). -/
def execRdChRls (c : Chan) (s : State) : Host.Outcome State Fault Refusal :=
  .next (answer (bankWord c (fun b => zext32 b.rls) s) s)

/-- `WR.CH_KEYOFF`: `RELF[c] <- 1`; the data is ignored (R156). -/
def execWrChKeyoff (c : Chan) (_d : Word) (s : State) : Host.Outcome State Fault Refusal :=
  .next (updateBank c (fun b => { b with relf := true }) s)

/-- `RD.CH_LEVEL`: `rdata <- zext_32(LEVEL[c])` (R157). -/
def execRdChLevel (c : Chan) (s : State) : Host.Outcome State Fault Refusal :=
  .next (answer (bankWord c (fun b => zext32 b.level) s) s)

end Sys2Proof.Machine
end

