-- ==== Sys2Proof/Machine/Mixer.lean ====
section
/-! DEFINITION. The stereo mixer, the internal step `FRAME`, the render engine's step and `WR.RENDER` (spec/43_mixer.md). -/

namespace Sys2Proof.Machine

/-- The sum of the active channels' contributions (R172). The channels may be visited in any order (R172; log 14). -/
def mixSum (bs : List Bank) : Int := ((bs.filter Bank.active).map Bank.contribution).sum

/-- `active_count` (R171). -/
def activeCount (bs : List Bank) : Nat := (bs.filter Bank.active).length

/-- `m = tdiv(sum, A + 1)` over banks whose phases have been advanced (R172). -/
def mixValue (bs : List Bank) : Int := tdiv (mixSum bs) (activeCount bs + headroom)

/-- `{trunc_16(m), trunc_16(m)}` (R173). -/
def packFrame (m : Int) : Word := BitVec.ofInt 16 m ++ BitVec.ofInt 16 m

/-- `DIV <- DIV + 1; if DIV >= SPT then DIV <- 0` (R176), the sum taken in integers (00_scope.md R9; log 13). -/
def nextDiv (s : State) : Half := if s.spt.toNat ≤ s.div.toNat + 1 then 0#16 else s.div + 1#16

/-- The tick step a frame step performs first, when `DIV = 0` (R176). -/
def tickIfDue (s : State) : State := if s.div = 0#16 then tickStep s else s

/-- The third branch of `FRAME`: the tick where due, every active phase advanced, the mix pushed, `DIV` counted (R176). -/
def renderFrame (s : State) : State :=
  let t := tickIfDue s
  let u := { t with banks := t.banks.map Bank.advance }
  let v := push (packFrame (mixValue u.banks)) u
  { v with div := nextDiv v }

/-- `FRAME`: rejected whole when there is no room, a silent frame while paused, else one rendered frame (R176). -/
def frameStep (s : State) : State :=
  if free s = 0 then setOvr s
  else if s.pause then push 0#32 s
  else renderFrame s

/-- The render engine's step: `FRAME; RCNT <- RCNT - 1` (R177). -/
def engineStep (s : State) : State :=
  let t := frameStep s
  { t with rcnt := t.rcnt - 1#16 }

/-- `WR.RENDER`: `RCNT <- data[15:0]` (R178). -/
def execWrRender (d : Word) (s : State) : Host.Outcome State Fault Refusal := .next { s with rcnt := field16 d }

end Sys2Proof.Machine
end

