-- ==== Sys2Proof/Machine/RingBuffer.lean ====
section
/-! DEFINITION. The ring buffer's operations (spec/44_ring_buffer.md R193, R195, R200 to R204). -/

namespace Sys2Proof.Machine

/-- `WR.RB_PUSH`: `Push(data)`, the left sample in `data[15:0]`, the right one in `data[31:16]` (R193). -/
def execWrRbPush (d : Word) (s : State) : Host.Outcome State Fault Refusal := .next (push d s)

/-- `POP`: one frame to the consumer (R195). -/
def execPop (s : State) : Host.Outcome State Fault Refusal := .next (deliver s)

/-- `RD.RB_CAP`: `rdata <- zext_32(CAP)` (R200). -/
def execRdRbCap (s : State) : Host.Outcome State Fault Refusal := .next (answer (BitVec.ofNat 32 s.cap) s)

/-- `RD.RB_WR`: `rdata <- zext_32(WR)` (R201). -/
def execRdRbWr (s : State) : Host.Outcome State Fault Refusal := .next (answer (BitVec.ofNat 32 s.wr) s)

/-- `RD.RB_RD`: `rdata <- zext_32(RD)` (R202). -/
def execRdRbRd (s : State) : Host.Outcome State Fault Refusal := .next (answer (BitVec.ofNat 32 s.rd) s)

/-- `RD.RB_OCC`: `rdata <- zext_32((WR - RD) mod CAP)` (R203). -/
def execRdRbOcc (s : State) : Host.Outcome State Fault Refusal := .next (answer (BitVec.ofNat 32 (occ s)) s)

/-- `RD.RB_FREE`: `rdata <- zext_32(CAP - 1 - ((WR - RD) mod CAP))` (R204). -/
def execRdRbFree (s : State) : Host.Outcome State Fault Refusal := .next (answer (BitVec.ofNat 32 (free s)) s)

end Sys2Proof.Machine
end

