-- ==== Sys2Proof/Machine/Dispatch.lean ====
section
/-! DEFINITION. One arm per operation of spec/opcode_table.json, in the table's order. -/

namespace Sys2Proof.Machine

def exec (i : Instr) (s : State) : Host.Outcome State Fault Refusal :=
  match i with
  | .wrCtrl d => Sys2Proof.Machine.execWrCtrl d s
  | .rdCtrl => Sys2Proof.Machine.execRdCtrl s
  | .wrStatus d => Sys2Proof.Machine.execWrStatus d s
  | .rdStatus => Sys2Proof.Machine.execRdStatus s
  | .wrSpt d => Sys2Proof.Machine.execWrSpt d s
  | .rdSpt => Sys2Proof.Machine.execRdSpt s
  | .wrRender d => Sys2Proof.Machine.execWrRender d s
  | .rdDiv => Sys2Proof.Machine.execRdDiv s
  | .rdTickcnt => Sys2Proof.Machine.execRdTickcnt s
  | .rdRbCap => Sys2Proof.Machine.execRdRbCap s
  | .rdRbWr => Sys2Proof.Machine.execRdRbWr s
  | .rdRbRd => Sys2Proof.Machine.execRdRbRd s
  | .rdRbOcc => Sys2Proof.Machine.execRdRbOcc s
  | .rdRbFree => Sys2Proof.Machine.execRdRbFree s
  | .wrRbPush d => Sys2Proof.Machine.execWrRbPush d s
  | .wrChEn c d => Sys2Proof.Machine.execWrChEn c d s
  | .rdChEn c => Sys2Proof.Machine.execRdChEn c s
  | .wrChWave c d => Sys2Proof.Machine.execWrChWave c d s
  | .rdChWave c => Sys2Proof.Machine.execRdChWave c s
  | .wrChVol c d => Sys2Proof.Machine.execWrChVol c d s
  | .rdChVol c => Sys2Proof.Machine.execRdChVol c s
  | .wrChAtk c d => Sys2Proof.Machine.execWrChAtk c d s
  | .rdChAtk c => Sys2Proof.Machine.execRdChAtk c s
  | .wrChRls c d => Sys2Proof.Machine.execWrChRls c d s
  | .rdChRls c => Sys2Proof.Machine.execRdChRls c s
  | .wrChInc c d => Sys2Proof.Machine.execWrChInc c d s
  | .rdChInc c => Sys2Proof.Machine.execRdChInc c s
  | .wrChNote c d => Sys2Proof.Machine.execWrChNote c d s
  | .wrChKeyoff c d => Sys2Proof.Machine.execWrChKeyoff c d s
  | .wrChReset c d => Sys2Proof.Machine.execWrChReset c d s
  | .rdChAcc c => Sys2Proof.Machine.execRdChAcc c s
  | .rdChLevel c => Sys2Proof.Machine.execRdChLevel c s
  | .rdChStat c => Sys2Proof.Machine.execRdChStat c s
  | .pop => Sys2Proof.Machine.execPop s

end Sys2Proof.Machine
end

