-- ==== Sys2Proof/Machine/Agents.lean ====
section
/-! DEFINITION. The agents' turns: the host at the producer port with its hold, the render engine, the consumer, and the reset event
(spec/20_memory.md R70 to R73; spec/43_mixer.md R177; spec/70_reset_and_hazards.md R280). -/

namespace Sys2Proof.Machine

/-- The outcome of a transaction word that matches no row of the table: a read is answered `0x00000000` and does nothing, a write
does nothing (30_encoding.md R88, R89, R90; log 8). -/
def unmatched (e : Reject) (s : State) : State :=
  match e with
  | .reservedRead => answer 0#32 s
  | .reservedWrite => s
  | .readOnlyWrite => s
  | .writeOnlyRead => answer 0#32 s

/-- A request performed at its port: the operation it decodes to, or the defined outcome of a word that matches no row (R92). -/
def perform (r : Request) (s : State) : Host.Outcome State Fault Refusal :=
  match decode r with
  | .ok i => exec i s
  | .error e => .next (unmatched e s)

/-- The host's turn: its oldest transaction, unless the port is held because `RCNT != 0` (20_memory.md R72) or none waits. -/
def hostTurn (s : State) : Host.Outcome State Fault Refusal :=
  if s.rcnt = 0#16 then
    match s.bus with
    | [] => .next s
    | t :: rest => perform (.bus t) { s with bus := rest }
  else .next s

/-- The render engine's turn: it has a step while `RCNT != 0`, and none else (43_mixer.md R177). -/
def engineTurn (s : State) : Host.Outcome State Fault Refusal :=
  if s.rcnt = 0#16 then .next s else .next (engineStep s)

/-- The consumer's turn: one `POP`, where one is requested (20_memory.md R70). -/
def consumerTurn (s : State) : Host.Outcome State Fault Refusal :=
  match s.pops with
  | 0 => .next s
  | n + 1 => perform .pop { s with pops := n }

/-- The reset event: SB's state becomes that of 10_state.md R56 "whatever it was before" (70_reset_and_hazards.md R280). What the
environment has yet to issue, and the order of its turns, is not SB's state and stays. DESIGN CHOICE, safe (log 7). -/
def resetTurn (s : State) : Host.Outcome State Fault Refusal :=
  .next { State.resetOf s.config with bus := s.bus, pops := s.pops, sched := s.sched }

/-- Whose turn it is: the schedule says (20_memory.md R71). Where it says nothing, the render engine if a burst is pending, else the
host if a transaction waits, else the consumer if a pop waits, else nobody. DESIGN CHOICE, unsafe for an empty schedule (log 4). -/
def nextTurn (s : State) : Option Turn :=
  match s.sched with
  | t :: _ => some t
  | [] =>
    if s.rcnt ≠ 0#16 then some .engine
    else if s.bus ≠ [] then some .host
    else if s.pops ≠ 0 then some .consumer
    else none

/-- The schedule with its first turn taken. -/
def dropTurn (s : State) : State := { s with sched := s.sched.tail }

/-- One turn. An agent with no enabled step lets its turn pass: nothing changes (20_memory.md R71). -/
def takeTurn (t : Option Turn) (s : State) : Host.Outcome State Fault Refusal :=
  match t with
  | some .host => hostTurn s
  | some .engine => engineTurn s
  | some .consumer => consumerTurn s
  | some .reset => resetTurn s
  | none => .next s

/-- The request placed at its port as the very next step, the port not held (log 5). -/
def place (r : Request) (s : State) : State :=
  match r with
  | .bus t => { s with bus := t :: s.bus, rcnt := 0#16, sched := .host :: s.sched }
  | .pop => { s with pops := s.pops + 1, sched := .consumer :: s.sched }

end Sys2Proof.Machine
end

