-- ==== Sys2Proof/Machine/Step.lean ====
section
/-! DEFINITION. One step of SB: one whole step of the agent whose turn it is (spec/20_memory.md R71, spec/00_scope.md R12). SB fetches no
instruction (spec/10_state.md R23): an operation is run when it is its port's turn. -/

namespace Sys2Proof.Machine

/-- One step (20_memory.md R71). -/
def step (s : State) : Host.Outcome State Fault Refusal := takeTurn (nextTurn s) (dropTurn s)

/-- The operation of `nbits` bits `w` issued at its port and scheduled next (log 5). -/
def State.withFetchWord (s : State) (nbits w : Nat) : State :=
  match Request.ofBits nbits w with
  | none => s
  | some r => place r s

end Sys2Proof.Machine
end

