-- ==== Sys2Proof/Machine/Pseudo.lean ====
section
/-! DEFINITION. The expansions of the pseudo-operations (spec/30_encoding.md R95). -/

namespace Sys2Proof.Machine

/-- The operations a pseudo-operation stands for, in issue order (30_encoding.md R95). -/
def expand : Pseudo → List Instr
  | .render n => [.wrRender (n.setWidth 32)]
  | .push l r => [.wrRbPush (r ++ l)]
  | .note c inc => [.wrChNote c (inc.setWidth 32)]
  | .rest c => [.wrChInc c 0#32]
  | .keyoff c => [.wrChKeyoff c 0#32]
  | .chreset c => [.wrChReset c 0#32]
  | .attach c => [.wrChReset c 0#32, .wrChEn c 1#32]
  | .stop c => [.wrChEn c 0#32]
  | .pause b => [.wrCtrl ((BitVec.ofBool b).setWidth 32)]
  | .clrflags => [.wrStatus 7#32]

end Sys2Proof.Machine
end

