-- ==== Sys2Proof/Safety.lean ====
section
/-! DEFINITION. What counts as a sound state of SB, and the terms the claims use. SB has no fault to be safe from (spec/60_exceptions.md
R250): safety is that every step is a next state and keeps these invariants. -/

namespace Sys2Proof.Machine

/-- The invariant of SB's state: the parameters in their ranges (00_scope.md R7), the storage in canonical form and inside the buffer
(10_state.md R31), the indices inside the buffer (R32, R33), `SPT` never 0 (R27), `DIV <= 65534` (70_reset_and_hazards.md R296).
`0 <= OCC <= CAP - 1` (R35) follows from the definition of `OCC`; the widths of the other registers are their types. -/
structure Sound (s : State) : Prop where
  params : s.config.wf = true
  memWf : s.mem.wf
  memInside : ∀ x ∈ s.mem, x.1 < s.cap
  wrInside : s.wr < s.cap
  rdInside : s.rd < s.cap
  sptNonzero : s.spt ≠ 0#16
  divBound : s.div.toNat ≤ 65534

/-- The frames pushed and not yet popped, oldest first: the slots `RD, RD+1, ..` modulo `CAP`, `OCC` of them (10_state.md R35). -/
def queue (s : State) : List Word := (List.range (occ s)).map (fun n => s.mem.read ((s.rd + n) % s.cap))

/-- A state that differs from `s` in its three sticky flags alone. -/
def withFlags (o u c : Bool) (s : State) : State := { s with ovr := o, udr := u, cfgerr := c }

/-- Every piece of SB's state has the value of the reset table, for the parameters of `t` (10_state.md R56). -/
def AtReset (t : State) : Prop :=
  t.pause = false ∧ t.ovr = false ∧ t.udr = false ∧ t.cfgerr = false ∧ t.spt = t.sptReset ∧ t.div = 0#16 ∧ t.tickcnt = 0#16 ∧
    t.rcnt = 0#16 ∧ (∀ a, t.mem.read a = 0#32) ∧ t.wr = 2 ^ t.k - 1 ∧ t.rd = 0 ∧ t.last = 0#32 ∧
    ∀ b ∈ t.banks, b.en = false ∧ b.wave = 0#2 ∧ b.vol = 0#8 ∧ b.atk = 0#8 ∧ b.rls = 0#8 ∧ b.inc = 0#16 ∧ b.acc = 0#16 ∧
      b.level = 0#8 ∧ b.relf = false

/-- The read `i` is answered `v` and changes nothing else (20_memory.md R64). -/
def Answers (i : Instr) (s : State) (v : Word) : Prop := exec i s = .next { s with rdata := v }

/-- An access to the word address `0x800 + 16*c + off` (30_encoding.md R83). -/
def atChannel (rw : Bool) (c : Chan) (off : Nat) (d : Word) : Request :=
  .bus (busWord rw (BitVec.ofNat 12 (0x800 + 16 * c.toNat + off)) d)

/-- Doing the operation again, with nothing in between, changes nothing further (20_memory.md R64). -/
def Idempotent (i : Instr) : Prop := ∀ s t, exec i s = .next t → exec i t = .next t

/-- The waveforms over one cycle, by the top four bits of the phase: the table of 41_oscillator.md R146, with `m = LEVEL >> 3` and
`t k = (LEVEL*k) >> 4`. -/
def waveTable (w : BitVec 2) (level : Nat) : List Int :=
  let m : Int := ((level / 8 : Nat) : Int)
  let t : Nat → Int := fun n => ((level * n / 16 : Nat) : Int)
  match w.toNat with
  | 0 => [m, m, m, m, -m, -m, -m, -m, -m, -m, -m, -m, -m, -m, -m, -m]
  | 1 => [m, m, m, m, m, m, m, m, -m, -m, -m, -m, -m, -m, -m, -m]
  | 2 => [m, m, m, m, m, m, m, m, m, m, m, m, -m, -m, -m, -m]
  | _ => [0, t 1, t 2, t 3, t 3, t 2, t 1, 0, 0, -t 1, -t 2, -t 3, -t 3, -t 2, -t 1, 0]

/-- The pushes the next step attempts, 1 or 0: a frame step of a pending burst (43_mixer.md R176, R177), or `WR.RB_PUSH` at a port that is
not held (44_ring_buffer.md R193). An attempt is counted whether or not there is room (70_reset_and_hazards.md R292). -/
def pushAttempts (s : State) : Nat :=
  match nextTurn s with
  | some .engine => if s.rcnt = 0#16 then 0 else 1
  | some .host =>
    match s.bus with
    | [] => 0
    | t :: _ =>
      match decode (.bus t) with
      | .ok (.wrRbPush _) => if s.rcnt = 0#16 then 1 else 0
      | _ => 0
  | _ => 0

/-- The frames the next step pops, 1 or 0: a `POP` of a buffer that is not empty (44_ring_buffer.md R195); an empty `POP` does not count. -/
def framesPopped (s : State) : Nat := if nextTurn s = some .consumer ∧ s.pops ≠ 0 ∧ occ s ≠ 0 then 1 else 0

/-- The sum of `f` over the states from which the first `n` steps are taken. -/
def countRun (f : State → Nat) (n : Nat) (s : State) : Nat :=
  match n with
  | 0 => 0
  | m + 1 =>
    f s +
      match step s with
      | .next t => countRun f m t
      | .fault _ => 0
      | .refused _ => 0

/-- `n` steps from `s`, or the stop. -/
def runSteps (n : Nat) (s : State) : Host.Outcome State Fault Refusal := Host.Core.run Sys2Proof.core n s

end Sys2Proof.Machine
end

