-- ==== Sys2Proof/Certificates/Slice0/Obligations.lean ====
section
/-! DEFINITION. The statements about SB, for the provers. Those of one operation say its encoding, its effect on every state and,
by the record update, its frame: every register, flag and slot not named keeps its value. -/

open Sys2Proof Sys2Proof.Machine

/-- Decoding an operation's request gives the operation back, with every operand at every value (30_encoding.md R80 to R85). -/
def Obligations.DecodeUndoesEncode : Prop := ∀ i : Instr, decode (encode i) = .ok i

/-- A word matches a row of the opcode table, `(T AND mask) = match`, iff the decoder reads that row's operation from it
(30_encoding.md R81, R96). -/
def Obligations.DecoderAgreesWithTheOpcodeTable : Prop :=
  ∀ (t : BusWord) (row : TableRow), row ∈ opcodeTable →
    ((t &&& row.mask) = row.pattern ↔ ∃ i, decode (.bus t) = .ok i ∧ i.mnemonic = row.mnemonic)

/-- Nine words written out in 95_test_vectors.md decode to the operations named there; three that match no row of the table (vectors DE1
and RB8, and the word of `WR CH0.ACC` in OS6) are rejected, under names that are the model's own (log 8, DEDUCED). -/
def Obligations.WordsOfTheSpecDecode : Prop :=
  decode (.bus 0x181600000800#45) = .ok (.wrChNote 1#7 0x800#32) ∧
  decode (.bus 0x1832000001FF#45) = .ok (.wrChVol 3#7 0x1FF#32) ∧
  decode (.bus 0x083200000000#45) = .ok (.rdChVol 3#7) ∧
  decode (.bus 0x18070000ABCD#45) = .ok (.wrChKeyoff 0#7 0xABCD#32) ∧
  decode (.bus 0x101500020001#45) = .ok (.wrRbPush 0x20001#32) ∧
  decode (.bus 0x001400000000#45) = .ok .rdRbFree ∧
  decode (.bus 0x100200000004#45) = .ok (.wrSpt 4#32) ∧
  decode (.bus 0x100300000007#45) = .ok (.wrRender 7#32) ∧
  decode (.bus 0x081B00000000#45) = .ok (.rdChStat 1#7) ∧
  decode (.bus 0x1006FFFFFFFF#45) = .error .reservedWrite ∧
  decode (.bus 0x001500000000#45) = .error .writeOnlyRead ∧
  decode (.bus 0x180900000000#45) = .error .readOnlyWrite

/-- "For a read, `T[31:0]` is ignored by the decoder" (30_encoding.md R81). -/
def Obligations.ReadDataIsIgnoredByTheDecoder : Prop :=
  ∀ t u : BusWord, busRw t = false → busRw u = false → busAddr t = busAddr u → decode (.bus t) = decode (.bus u)

/-- SB raises no exception and its step function is total (60_exceptions.md R250). -/
def Obligations.EveryOperationAndEveryStepHasANextState : Prop :=
  (∀ i s, ∃ t, exec i s = .next t) ∧ (∀ s, ∃ t, step s = .next t)

/-- A step runs the operation decoded from the request whose turn it is, gives a transaction word that matches no row the outcome of its
rule (30_encoding.md R88 to R90; the names of the rejections are the model's, log 8), and runs the render engine's step on its turn
(20_memory.md R70, R71; the ports' fields are the model's, log 3 and log 4). -/
def Obligations.StepRunsTheDecodedOperation : Prop :=
  (∀ s t rest i, nextTurn s = some .host → s.rcnt = 0#16 → s.bus = t :: rest → decode (.bus t) = .ok i →
    step s = exec i { s with bus := rest, sched := s.sched.tail }) ∧
  (∀ s t rest e, nextTurn s = some .host → s.rcnt = 0#16 → s.bus = t :: rest → decode (.bus t) = .error e →
    step s = .next (unmatched e { s with bus := rest, sched := s.sched.tail }) ∧
    (busRw t = true → step s = .next { s with bus := rest, sched := s.sched.tail }) ∧
    (busRw t = false → step s = .next { s with bus := rest, sched := s.sched.tail, rdata := 0#32 })) ∧
  (∀ s n, nextTurn s = some .consumer → s.pops = n + 1 → step s = exec .pop { s with pops := n, sched := s.sched.tail }) ∧
  (∀ s, nextTurn s = some .engine → s.rcnt ≠ 0#16 → step s = .next (engineStep { s with sched := s.sched.tail }))

/-- An operation placed at its port by `withFetchWord` is the very next step (the model's way to issue one, log 5). -/
def Obligations.PlacedOperationRunsNext : Prop :=
  (∀ (s : State) (i : Instr) (t : BusWord), encode i = .bus t → step (s.withFetchWord 48 t.toNat) = exec i { s with rcnt := 0#16 }) ∧
  (∀ s : State, step (s.withFetchWord 8 1) = exec .pop s)

/-- "While `RCNT != 0` the host has no enabled step" and its transaction still waits (20_memory.md R72); "While `RCNT = 0`" the render engine
has none, so no frame is rendered without a pending burst (43_mixer.md R177; 30_encoding.md R93). That the turn of an agent with no
enabled step passes and drops from the schedule is the model's choice (log 4), and so is the hold's place in the host's turn (log 16). -/
def Obligations.HostIsHeldWhileABurstIsPending : Prop :=
  (∀ s, s.rcnt ≠ 0#16 → nextTurn s = some .host → step s = .next { s with sched := s.sched.tail }) ∧
  (∀ s, s.rcnt = 0#16 → nextTurn s = some .engine → step s = .next { s with sched := s.sched.tail })

/-- The hold ends after the burst's render-engine steps, wherever the consumer's steps fall between them (20_memory.md R72;
43_mixer.md R177). -/
def Obligations.HoldEndsAfterTheBurstWhateverTheConsumerDoes : Prop :=
  ∀ s (l rest : List Turn), s.sched = l ++ rest → (∀ u ∈ l, u = .engine ∨ u = .consumer) →
    ∃ t, runSteps l.length s = .next t ∧ t.rcnt.toNat = s.rcnt.toNat - l.count .engine ∧ t.bus = s.bus ∧ t.sched = rest

/-- The invariant holds after reset, for all parameters in their ranges; and for the model's own choice of them (log 2). -/
def Obligations.InvariantHoldsAfterReset : Prop :=
  (∀ c : Config, c.wf = true → Sound (State.resetOf c)) ∧ Sound State.reset

/-- Every step keeps the invariant: the storage canonical and inside the buffer, the indices in `0 .. CAP-1`, `SPT` never 0,
`DIV <= 65534` (10_state.md R27, R31 to R33; 70_reset_and_hazards.md R296). -/
def Obligations.EveryStepKeepsTheInvariant : Prop := ∀ s t, Sound s → step s = .next t → Sound t

/-- `NCH`, `CAP` and `SPT_RESET` are parameters, not state: no step changes them (10_state.md R21). -/
def Obligations.NoStepChangesTheParameters : Prop := ∀ s t, step s = .next t → t.config = s.config

/-- Every piece of state has the value of the reset table right after reset, from whatever state (10_state.md R56;
70_reset_and_hazards.md R280). That the reset event is a turn of the schedule is the model's choice (log 7). -/
def Obligations.ResetGivesTheTableOfResetValues : Prop :=
  (∀ c : Config, AtReset (State.resetOf c) ∧ (State.resetOf c).config = c) ∧
  (∀ s, nextTurn s = some .reset → ∃ t, step s = .next t ∧ AtReset t ∧ t.config = s.config)

/-- What every register reads directly after reset, for all parameters (70_reset_and_hazards.md R282). -/
def Obligations.RegistersReadTheirResetValues : Prop :=
  ∀ c : Config, ∀ s, s = State.resetOf c →
    Answers .rdCtrl s 0#32 ∧ Answers .rdStatus s 0#32 ∧ Answers .rdSpt s (c.sptReset.setWidth 32) ∧
    perform (.bus (busWord false 0x003#12 0#32)) s = .next { s with rdata := 0#32 } ∧
    Answers .rdDiv s 0#32 ∧ Answers .rdTickcnt s 0#32 ∧ Answers .rdRbCap s (BitVec.ofNat 32 (2 ^ c.k)) ∧
    Answers .rdRbWr s (BitVec.ofNat 32 (2 ^ c.k - 1)) ∧ Answers .rdRbRd s 0#32 ∧
    Answers .rdRbOcc s (BitVec.ofNat 32 (2 ^ c.k - 1)) ∧ Answers .rdRbFree s 0#32 ∧
    perform (.bus (busWord false 0x015#12 0#32)) s = .next { s with rdata := 0#32 } ∧
    ∀ (ch : Chan) (off : Nat), off < 16 → perform (atChannel false ch off 0#32) s = .next { s with rdata := 0#32 }

/-- "The first `CAP - 1` `POP`s after reset (with no push in between) each return `0x00000000` and leave `LAST = 0`; the next
returns `LAST = 0x00000000` and sets `UDR`" (70_reset_and_hazards.md R282). -/
def Obligations.PrefillDrainsThenUnderruns : Prop :=
  ∀ (c : Config) (n : Nat) (s : State), s = { State.resetOf c with pops := n, sched := List.replicate n .consumer } →
    (n ≤ 2 ^ c.k - 1 →
      ∃ t, runSteps n s = .next t ∧ t.frame = 0#32 ∧ t.last = 0#32 ∧ t.udr = false ∧ t.rd = n ∧ occ t = 2 ^ c.k - 1 - n) ∧
    (n = 2 ^ c.k → ∃ t, runSteps n s = .next t ∧ t.frame = 0#32 ∧ t.last = 0#32 ∧ t.udr = true ∧ t.rd = 2 ^ c.k - 1)

/-- `WR.CTRL` (40_global_control.md R100). -/
def Obligations.WrCtrlSetsPauseAlone : Prop :=
  ∀ (d : Word) (s : State),
    decode (.bus (busWord true 0x000#12 d)) = .ok (.wrCtrl d) ∧
    exec (.wrCtrl d) s = .next { s with pause := d.getLsbD 0 }

/-- `WR.STATUS`, write-1-to-clear (40_global_control.md R102). -/
def Obligations.WrStatusClearsTheSelectedFlagsAlone : Prop :=
  ∀ (d : Word) (s : State),
    decode (.bus (busWord true 0x001#12 d)) = .ok (.wrStatus d) ∧
    exec (.wrStatus d) s = .next
      { s with
        ovr := if d.getLsbD 0 = true then false else s.ovr
        udr := if d.getLsbD 1 = true then false else s.udr
        cfgerr := if d.getLsbD 2 = true then false else s.cfgerr }

/-- `WR.SPT`, with the configuration check (40_global_control.md R104). -/
def Obligations.WrSptStoresANonzeroValueAndRejectsZero : Prop :=
  ∀ (d : Word) (s : State),
    decode (.bus (busWord true 0x002#12 d)) = .ok (.wrSpt d) ∧
    (d.setWidth 16 = 0#16 → exec (.wrSpt d) s = .next { s with cfgerr := true }) ∧
    (d.setWidth 16 ≠ 0#16 → exec (.wrSpt d) s = .next { s with spt := d.setWidth 16 })

/-- `RD.CTRL`, `RD.STATUS`, `RD.SPT`, `RD.DIV`, `RD.TICKCNT`: what each answers, and nothing else changes (40_global_control.md R101,
R103, R105, R106, R107). `RD.SPT` never answers 0 where `SPT` is not 0, as it is in every state of the invariant. -/
def Obligations.GlobalRegistersReadTheirValues : Prop :=
  ∀ (d : Word) (s : State),
    decode (.bus (busWord false 0x000#12 d)) = .ok .rdCtrl ∧ Answers .rdCtrl s (BitVec.ofNat 32 s.pause.toNat) ∧
    decode (.bus (busWord false 0x001#12 d)) = .ok .rdStatus ∧
    Answers .rdStatus s (BitVec.ofNat 32 (s.ovr.toNat + 2 * s.udr.toNat + 4 * s.cfgerr.toNat)) ∧
    decode (.bus (busWord false 0x002#12 d)) = .ok .rdSpt ∧ Answers .rdSpt s (BitVec.ofNat 32 s.spt.toNat) ∧
    (Sound s → BitVec.ofNat 32 s.spt.toNat ≠ 0#32) ∧
    decode (.bus (busWord false 0x004#12 d)) = .ok .rdDiv ∧ Answers .rdDiv s (BitVec.ofNat 32 s.div.toNat) ∧
    decode (.bus (busWord false 0x005#12 d)) = .ok .rdTickcnt ∧ Answers .rdTickcnt s (BitVec.ofNat 32 s.tickcnt.toNat)

/-- `RD.RB_CAP`, `RD.RB_WR`, `RD.RB_RD`, `RD.RB_OCC`, `RD.RB_FREE`: what each answers, and nothing else changes (44_ring_buffer.md R200 to
R204). -/
def Obligations.RingRegistersReadTheirValues : Prop :=
  ∀ (d : Word) (s : State),
    decode (.bus (busWord false 0x010#12 d)) = .ok .rdRbCap ∧ Answers .rdRbCap s (BitVec.ofNat 32 (2 ^ s.k)) ∧
    decode (.bus (busWord false 0x011#12 d)) = .ok .rdRbWr ∧ Answers .rdRbWr s (BitVec.ofNat 32 s.wr) ∧
    decode (.bus (busWord false 0x012#12 d)) = .ok .rdRbRd ∧ Answers .rdRbRd s (BitVec.ofNat 32 s.rd) ∧
    decode (.bus (busWord false 0x013#12 d)) = .ok .rdRbOcc ∧
    Answers .rdRbOcc s (BitVec.ofInt 32 (((s.wr : Int) - (s.rd : Int)) % (2 : Int) ^ s.k)) ∧
    decode (.bus (busWord false 0x014#12 d)) = .ok .rdRbFree ∧
    Answers .rdRbFree s (BitVec.ofInt 32 ((2 : Int) ^ s.k - 1 - ((s.wr : Int) - (s.rd : Int)) % (2 : Int) ^ s.k))

/-- `WR.CH_EN`, `WR.CH_WAVE`, `WR.CH_VOL`, `WR.CH_ATK`, `WR.CH_RLS`, `WR.CH_INC` of an existing channel store their field, truncated, and
change nothing else (41_oscillator.md R120, R122, R128; 42_envelope.md R150, R152, R154; 30_encoding.md R87). -/
def Obligations.ChannelFieldWritesStoreTheFieldAlone : Prop :=
  ∀ (c : Chan) (d : Word) (s : State) (b : Bank), s.banks[c.toNat]? = some b →
    (decode (atChannel true c 0x0 d) = .ok (.wrChEn c d) ∧
      exec (.wrChEn c d) s = .next { s with banks := s.banks.set c.toNat { b with en := d.getLsbD 0 } }) ∧
    (decode (atChannel true c 0x1 d) = .ok (.wrChWave c d) ∧
      exec (.wrChWave c d) s = .next { s with banks := s.banks.set c.toNat { b with wave := d.setWidth 2 } }) ∧
    (decode (atChannel true c 0x2 d) = .ok (.wrChVol c d) ∧
      exec (.wrChVol c d) s = .next { s with banks := s.banks.set c.toNat { b with vol := d.setWidth 8 } }) ∧
    (decode (atChannel true c 0x3 d) = .ok (.wrChAtk c d) ∧
      exec (.wrChAtk c d) s = .next { s with banks := s.banks.set c.toNat { b with atk := d.setWidth 8 } }) ∧
    (decode (atChannel true c 0x4 d) = .ok (.wrChRls c d) ∧
      exec (.wrChRls c d) s = .next { s with banks := s.banks.set c.toNat { b with rls := d.setWidth 8 } }) ∧
    (decode (atChannel true c 0x5 d) = .ok (.wrChInc c d) ∧
      exec (.wrChInc c d) s = .next { s with banks := s.banks.set c.toNat { b with inc := d.setWidth 16 } })

/-- `RD.CH_EN`, `RD.CH_WAVE`, `RD.CH_VOL`, `RD.CH_ATK`, `RD.CH_RLS`, `RD.CH_INC`, `RD.CH_ACC`, `RD.CH_LEVEL` of an existing channel answer their
field and change nothing (41_oscillator.md R121, R123, R129, R136; 42_envelope.md R151, R153, R155, R157). -/
def Obligations.ChannelFieldReadsAnswerTheField : Prop :=
  ∀ (c : Chan) (d : Word) (s : State) (b : Bank), s.banks[c.toNat]? = some b →
    (decode (atChannel false c 0x0 d) = .ok (.rdChEn c) ∧ Answers (.rdChEn c) s (BitVec.ofNat 32 b.en.toNat)) ∧
    (decode (atChannel false c 0x1 d) = .ok (.rdChWave c) ∧ Answers (.rdChWave c) s (BitVec.ofNat 32 b.wave.toNat)) ∧
    (decode (atChannel false c 0x2 d) = .ok (.rdChVol c) ∧ Answers (.rdChVol c) s (BitVec.ofNat 32 b.vol.toNat)) ∧
    (decode (atChannel false c 0x3 d) = .ok (.rdChAtk c) ∧ Answers (.rdChAtk c) s (BitVec.ofNat 32 b.atk.toNat)) ∧
    (decode (atChannel false c 0x4 d) = .ok (.rdChRls c) ∧ Answers (.rdChRls c) s (BitVec.ofNat 32 b.rls.toNat)) ∧
    (decode (atChannel false c 0x5 d) = .ok (.rdChInc c) ∧ Answers (.rdChInc c) s (BitVec.ofNat 32 b.inc.toNat)) ∧
    (decode (atChannel false c 0x9 d) = .ok (.rdChAcc c) ∧ Answers (.rdChAcc c) s (BitVec.ofNat 32 b.acc.toNat)) ∧
    (decode (atChannel false c 0xA d) = .ok (.rdChLevel c) ∧ Answers (.rdChLevel c) s (BitVec.ofNat 32 b.level.toNat))

/-- `RD.CH_STAT` of an existing channel: `RELF` in bit 0, `ACTIVE`, computed at the read, in bit 1 (41_oscillator.md R137). -/
def Obligations.ChStatReadsReleaseAndActivity : Prop :=
  ∀ (c : Chan) (d : Word) (s : State) (b : Bank), s.banks[c.toNat]? = some b →
    decode (atChannel false c 0xB d) = .ok (.rdChStat c) ∧
    (b.en = true ∧ b.inc ≠ 0#16 → Answers (.rdChStat c) s (BitVec.ofNat 32 (b.relf.toNat + 2))) ∧
    (¬(b.en = true ∧ b.inc ≠ 0#16) → Answers (.rdChStat c) s (BitVec.ofNat 32 b.relf.toNat))

/-- `WR.CH_NOTE` of an existing channel (41_oscillator.md R130): `EN`, `WAVE`, `VOL`, `ATK`, `RLS` and everything outside the bank keep
their values. -/
def Obligations.NoteOnRestartsPhaseAndEnvelope : Prop :=
  ∀ (c : Chan) (d : Word) (s : State) (b : Bank), s.banks[c.toNat]? = some b →
    decode (atChannel true c 0x6 d) = .ok (.wrChNote c d) ∧
    exec (.wrChNote c d) s = .next
      { s with banks := s.banks.set c.toNat { b with inc := d.setWidth 16, acc := 0#16, level := 0#8, relf := false } }

/-- `WR.CH_KEYOFF` of an existing channel, whatever its data and whether or not it is enabled (42_envelope.md R156). -/
def Obligations.KeyOffSetsTheReleaseFlagAlone : Prop :=
  ∀ (c : Chan) (d : Word) (s : State) (b : Bank), s.banks[c.toNat]? = some b →
    decode (atChannel true c 0x7 d) = .ok (.wrChKeyoff c d) ∧
    exec (.wrChKeyoff c d) s = .next { s with banks := s.banks.set c.toNat { b with relf := true } }

/-- `WR.CH_RESET` of an existing channel, whatever its data (41_oscillator.md R134). -/
def Obligations.ChResetZeroesTheBankAlone : Prop :=
  ∀ (c : Chan) (d : Word) (s : State) (b : Bank), s.banks[c.toNat]? = some b →
    decode (atChannel true c 0x8 d) = .ok (.wrChReset c d) ∧
    exec (.wrChReset c d) s = .next
      { s with banks := s.banks.set c.toNat ⟨false, 0#2, 0#8, 0#8, 0#8, 0#16, 0#16, 0#8, false⟩ }

/-- An access to a channel `c >= NCH`, whatever its offset: a read is answered 0, a write changes nothing (30_encoding.md R91). -/
def Obligations.AbsentChannelReadsZeroAndIgnoresWrites : Prop :=
  ∀ (rw : Bool) (c : Chan) (off : Nat) (d : Word) (s : State), off < 16 → s.nch ≤ c.toNat →
    perform (atChannel rw c off d) s = .next (if rw = true then s else { s with rdata := 0#32 })

/-- A reserved address: a read is answered 0, a write changes nothing (30_encoding.md R88). -/
def Obligations.ReservedAddressReadsZeroAndIgnoresWrites : Prop :=
  (∀ (rw : Bool) (a : Nat) (d : Word) (s : State), (0x006 ≤ a ∧ a ≤ 0x00F) ∨ (0x016 ≤ a ∧ a ≤ 0x7FF) →
    perform (.bus (busWord rw (BitVec.ofNat 12 a) d)) s = .next (if rw = true then s else { s with rdata := 0#32 })) ∧
  (∀ (rw : Bool) (c : Chan) (off : Nat) (d : Word) (s : State), 0xC ≤ off ∧ off ≤ 0xF →
    perform (atChannel rw c off d) s = .next (if rw = true then s else { s with rdata := 0#32 }))

/-- A write to `DIV`, `TICKCNT`, `RB_CAP`, `RB_WR`, `RB_RD`, `RB_OCC`, `RB_FREE`, `CH_ACC`, `CH_LEVEL` or `CH_STAT` changes nothing
(30_encoding.md R89). -/
def Obligations.ReadOnlyRegistersIgnoreWrites : Prop :=
  (∀ (a : Addr) (d : Word) (s : State), a ∈ [0x004#12, 0x005#12, 0x010#12, 0x011#12, 0x012#12, 0x013#12, 0x014#12] →
    perform (.bus (busWord true a d)) s = .next s) ∧
  (∀ (c : Chan) (off : Nat) (d : Word) (s : State), off ∈ [0x9, 0xA, 0xB] → perform (atChannel true c off d) s = .next s)

/-- A read of `RENDER`, `RB_PUSH`, `CH_NOTE`, `CH_KEYOFF` or `CH_RESET` is answered 0 and performs no action (30_encoding.md R90). -/
def Obligations.WriteOnlyRegistersReadZeroWithoutAction : Prop :=
  (∀ (a : Addr) (d : Word) (s : State), a ∈ [0x003#12, 0x015#12] →
    perform (.bus (busWord false a d)) s = .next { s with rdata := 0#32 }) ∧
  (∀ (c : Chan) (off : Nat) (d : Word) (s : State), off ∈ [0x6, 0x7, 0x8] →
    perform (atChannel false c off d) s = .next { s with rdata := 0#32 })

/-- "No operation on channel `c` reads or writes the state of another channel" (60_exceptions.md R261): it leaves the other banks
and all of the state outside the banks alone, and what it writes and answers depends on bank `c` only. -/
def Obligations.ChannelOperationTouchesItsOwnBankAlone : Prop :=
  (∀ i c s t, i.chan = some c → exec i s = .next t →
    (∀ n, n ≠ c.toNat → t.banks[n]? = s.banks[n]?) ∧ t = { s with banks := t.banks, rdata := t.rdata }) ∧
  (∀ i c s t s' t', i.chan = some c → exec i s = .next t → exec i s' = .next t' →
    s'.banks[c.toNat]? = s.banks[c.toNat]? → s'.rdata = s.rdata →
    t'.banks[c.toNat]? = t.banks[c.toNat]? ∧ t'.rdata = t.rdata)

/-- "No `RegRead` has a side effect: reading any address, any number of times, changes no state" (20_memory.md R64): nothing but the
port's answer differs. -/
def Obligations.NoReadHasASideEffect : Prop :=
  ∀ (w : BusWord) (s t : State), busRw w = false → perform (.bus w) s = .next t → t = { s with rdata := t.rdata }

/-- The plain writes and the idempotent strobes (20_memory.md R64 (a), (b)), and `WR.CH_NOTE` with no frame step in between (R64 (c)). -/
def Obligations.PlainWritesAndIdempotentStrobesRepeatToNothing : Prop :=
  (∀ d : Word, Idempotent (.wrCtrl d) ∧ Idempotent (.wrStatus d) ∧ Idempotent (.wrSpt d)) ∧
  (∀ (c : Chan) (d : Word), Idempotent (.wrChEn c d) ∧ Idempotent (.wrChWave c d) ∧ Idempotent (.wrChVol c d) ∧
    Idempotent (.wrChAtk c d) ∧ Idempotent (.wrChRls c d) ∧ Idempotent (.wrChInc c d) ∧ Idempotent (.wrChNote c d) ∧
    Idempotent (.wrChKeyoff c d) ∧ Idempotent (.wrChReset c d))

/-- `WR.RENDER` loads the burst counter and does nothing else itself (43_mixer.md R178). -/
def Obligations.WrRenderLoadsTheBurstCounterAlone : Prop :=
  ∀ (d : Word) (s : State),
    decode (.bus (busWord true 0x003#12 d)) = .ok (.wrRender d) ∧
    exec (.wrRender d) s = .next { s with rcnt := d.setWidth 16 }

/-- The render engine's step in the three branches of the frame step (43_mixer.md R176, R177): rejected whole with no room; a silent
frame while paused; else the tick when `DIV = 0`, every active phase advanced, the mix pushed, `DIV` counted. -/
def Obligations.EngineStepRendersOneFrame : Prop :=
  ∀ s, nextTurn s = some .engine → s.rcnt ≠ 0#16 →
    (free s = 0 → step s = .next { s with sched := s.sched.tail, ovr := true, rcnt := s.rcnt - 1#16 }) ∧
    (free s ≠ 0 → s.pause = true →
      step s = .next
        { s with
          sched := s.sched.tail
          mem := s.mem.write s.wr 0#32
          wr := (s.wr + 1) % 2 ^ s.k
          rcnt := s.rcnt - 1#16 }) ∧
    (free s ≠ 0 → s.pause = false →
      ∀ bs, bs = (if s.div = 0#16 then s.banks.map Bank.tick else s.banks).map Bank.advance →
        step s = .next
          { s with
            sched := s.sched.tail
            banks := bs
            tickcnt := if s.div = 0#16 then s.tickcnt + 1#16 else s.tickcnt
            mem := s.mem.write s.wr (packFrame (mixValue bs))
            wr := (s.wr + 1) % 2 ^ s.k
            div := if s.spt.toNat ≤ s.div.toNat + 1 then 0#16 else s.div + 1#16
            rcnt := s.rcnt - 1#16 })

/-- The attack phase of the tick step and its properties (42_envelope.md R161, R162); a disabled channel keeps its level; a tick
changes no field but `LEVEL`. -/
def Obligations.AttackStepApproachesTheVolume : Prop :=
  ∀ b : Bank,
    b.tick = { b with level := b.tick.level } ∧ (b.en = false → b.tick = b) ∧
    (b.en = true → b.relf = false →
      (b.tick.level.toNat : Int) =
        b.level.toNat + Int.fdiv (((b.vol.toNat : Int) - b.level.toNat) * b.atk.toNat) 256 ∧
      (b.level.toNat < b.vol.toNat → b.level.toNat ≤ b.tick.level.toNat ∧ b.tick.level.toNat < b.vol.toNat ∧
        (b.tick.level = b.level ↔ (b.vol.toNat - b.level.toNat) * b.atk.toNat < 256)) ∧
      (b.vol.toNat < b.level.toNat → b.atk ≠ 0#8 →
        b.vol.toNat ≤ b.tick.level.toNat ∧ b.tick.level.toNat < b.level.toNat) ∧
      (b.vol = b.level ∨ b.atk = 0#8 → b.tick.level = b.level) ∧
      (b.level = 0#8 → b.tick.level.toNat = b.vol.toNat * b.atk.toNat / 256))

/-- A lowered volume target is reached exactly: "the level falls by at least 1 per tick and reaches `VOL` exactly, never below it"
(42_envelope.md R162 (b)). -/
def Obligations.LoweredVolumeIsReachedExactly : Prop :=
  ∀ (b : Bank) (n : Nat), b.en = true → b.relf = false → b.atk ≠ 0#8 → b.vol.toNat ≤ b.level.toNat →
    b.level.toNat - b.vol.toNat ≤ n → (Bank.tick^[n] b).level = b.vol

/-- The release phase of the tick step: the decrement, at least 1 and at most the level; "the number of ticks to silence from level `L0`
is at most `L0`", for every release constant; at 0 the level stays (42_envelope.md R161, R163, R164). -/
def Obligations.ReleaseDecaysStrictlyToSilence : Prop :=
  ∀ b : Bank, b.en = true → b.relf = true →
    (b.level ≠ 0#8 →
      b.tick.level.toNat + max 1 (b.level.toNat * b.rls.toNat / 256) = b.level.toNat ∧ b.tick.level.toNat < b.level.toNat) ∧
    (b.level = 0#8 → b.tick = b) ∧
    (∀ n : Nat, b.level.toNat ≤ n → (Bank.tick^[n] b).level = 0#8)

/-- The waveforms over one cycle: the table of 41_oscillator.md R146, for every level, with the DC component of the squares. -/
def Obligations.ContributionFollowsTheWaveformTable : Prop :=
  (∀ b : Bank, (waveTable b.wave b.level.toNat)[b.acc.toNat / 4096]? = some b.contribution) ∧
  (∀ level : Nat, (waveTable 0#2 level).sum = -8 * ((level / 8 : Nat) : Int) ∧ (waveTable 1#2 level).sum = 0 ∧
    (waveTable 2#2 level).sum = 8 * ((level / 8 : Nat) : Int) ∧ (waveTable 3#2 level).sum = 0)

/-- "Range: `-31 .. +31` for the three square types and `-47 .. +47` for the triangle" (41_oscillator.md R142). -/
def Obligations.ContributionStaysInItsRange : Prop :=
  ∀ b : Bank, (b.wave ≠ 3#2 → -31 ≤ b.contribution ∧ b.contribution ≤ 31) ∧ (-47 ≤ b.contribution ∧ b.contribution ≤ 47)

/-- The phase after `n` frames of an active channel, and the length of the exact cycle (41_oscillator.md R140, R141); a channel that is
not active keeps its phase. -/
def Obligations.PhaseAdvancesByTheIncrement : Prop :=
  ∀ (b : Bank),
    (¬(b.en = true ∧ b.inc ≠ 0#16) → b.advance = b) ∧
    (b.en = true → b.inc ≠ 0#16 →
      (∀ n, Bank.advance^[n] b = { b with acc := BitVec.ofNat 16 (b.acc.toNat + n * b.inc.toNat) }) ∧
      Bank.advance^[65536 / Nat.gcd b.inc.toNat 65536] b = b)

/-- The order in which channels are visited does not matter (43_mixer.md R172; 93_implementation_defined.md U18). -/
def Obligations.MixIgnoresTheOrderOfChannels : Prop := ∀ bs cs : List Bank, bs.Perm cs → mixValue bs = mixValue cs

/-- The mix is the sum of the active contributions divided by the active count plus one, truncated toward zero (43_mixer.md R172); it
fits a sample, and both samples of the frame carry it (R173). -/
def Obligations.MixedSampleIsTheTruncatedMeanWithHeadroom : Prop :=
  ∀ bs : List Bank,
    mixValue bs =
      Int.tdiv (((bs.filter (fun b => b.en && b.inc != 0#16)).map Bank.contribution).sum)
        (bs.countP (fun b => b.en && b.inc != 0#16) + 1) ∧
    -46 ≤ mixValue bs ∧ mixValue bs ≤ 46 ∧
    ((packFrame (mixValue bs)).extractLsb' 0 16).toInt = mixValue bs ∧
    ((packFrame (mixValue bs)).extractLsb' 16 16).toInt = mixValue bs

/-- A frame rendered while paused, or with no active channel, is silent (43_mixer.md R174 (c), R179); every other slot of the storage
reads as before. -/
def Obligations.SilenceIsExactlyZero : Prop :=
  ∀ s, Sound s → nextTurn s = some .engine → s.rcnt ≠ 0#16 → free s ≠ 0 →
    (s.pause = true ∨ ∀ b ∈ s.banks, b.en = false ∨ b.inc = 0#16) →
    ∃ t, step s = .next t ∧ t.mem.read s.wr = 0#32 ∧ t.wr = (s.wr + 1) % 2 ^ s.k ∧
      ∀ a, a ≠ s.wr → t.mem.read a = s.mem.read a

/-- Headroom: two active channels with equal contributions `x > 0` (43_mixer.md R174 (a)). -/
def Obligations.TwoEqualChannelsKeepHeadroom : Prop :=
  ∀ (b c : Bank) (x : Int), b.active = true → c.active = true → b.contribution = x → c.contribution = x → 0 < x →
    mixValue [b, c] = Int.tdiv (2 * x) 3 ∧ mixValue [b, c] < 2 * x ∧
    (mixValue [b, c] < mixValue [b] + mixValue [c] ↔ x = 2 ∨ 4 ≤ x)

/-- `WR.RB_PUSH` (44_ring_buffer.md R191 to R193): on a full buffer only `OVR` changes; else the frame stands in slot `WR`, every other slot
reads as before, `WR` moves on modulo `CAP`, `OCC` is one larger and `FREE` one smaller. -/
def Obligations.RbPushQueuesOrIsRejected : Prop :=
  ∀ (d : Word) (s : State), s.mem.wf →
    decode (.bus (busWord true 0x015#12 d)) = .ok (.wrRbPush d) ∧
    (free s = 0 → exec (.wrRbPush d) s = .next { s with ovr := true }) ∧
    (free s ≠ 0 →
      ∃ t, exec (.wrRbPush d) s = .next t ∧ t = { s with mem := t.mem, wr := (s.wr + 1) % 2 ^ s.k } ∧
        t.mem.wf ∧ t.mem.read s.wr = d ∧ (∀ a, a ≠ s.wr → t.mem.read a = s.mem.read a) ∧
        occ t = occ s + 1 ∧ free t + 1 = free s)

/-- `POP` (44_ring_buffer.md R195, R196): on an empty buffer the answer is `LAST` and only `UDR` changes; else the answer is the frame in
slot `RD`, kept in `LAST`, `RD` moves on modulo `CAP`, `OCC` is one smaller and `FREE` one larger. -/
def Obligations.PopDeliversOrHoldsTheLastFrame : Prop :=
  ∀ s : State,
    decode .pop = .ok .pop ∧
    (occ s = 0 → exec .pop s = .next { s with udr := true, frame := s.last }) ∧
    (occ s ≠ 0 →
      ∃ t, exec .pop s = .next t ∧
        t = { s with frame := s.mem.read s.rd, last := s.mem.read s.rd, rd := (s.rd + 1) % 2 ^ s.k } ∧
        occ t + 1 = occ s ∧ free t = free s + 1)

/-- The ring buffer is a first-in first-out queue of at most `CAP - 1` frames: push appends, or is rejected when full and loses
nothing; pop takes the oldest, or repeats the last when empty (10_state.md R35; 44_ring_buffer.md R190 to R196). -/
def Obligations.RingBufferIsABoundedFifo : Prop :=
  ∀ s, Sound s →
    (queue s).length ≤ 2 ^ s.k - 1 ∧
    (∀ d, ∃ t, exec (.wrRbPush d) s = .next t ∧
      ((queue s).length < 2 ^ s.k - 1 → queue t = queue s ++ [d] ∧ t.ovr = s.ovr) ∧
      ((queue s).length = 2 ^ s.k - 1 → queue t = queue s ∧ t.ovr = true)) ∧
    (∃ t, exec .pop s = .next t ∧
      (queue s = [] → queue t = [] ∧ t.frame = s.last ∧ t.udr = true) ∧
      (∀ f q, queue s = f :: q → queue t = q ∧ t.frame = f ∧ t.last = f ∧ t.udr = s.udr))

/-- The render engine queues one frame, the same in both samples, after the frames already queued; with no room it queues none
(43_mixer.md R173, R176). -/
def Obligations.EngineStepQueuesOneFrameInOrder : Prop :=
  ∀ s, Sound s → nextTurn s = some .engine → s.rcnt ≠ 0#16 →
    ∃ t, step s = .next t ∧
      (free s = 0 → queue t = queue s) ∧
      (free s ≠ 0 → ∃ f : Word, queue t = queue s ++ [f] ∧ f.extractLsb' 16 16 = f.extractLsb' 0 16)

/-- Ownership (60_exceptions.md R261; 20_memory.md R75): no step of the producer side touches `RD` or `LAST`, and the consumer's step
touches nothing but `RD`, `LAST`, `UDR` and its own port. -/
def Obligations.EachSideWritesItsOwnIndexAlone : Prop :=
  ∀ s t, step s = .next t →
    (nextTurn s = some .host ∨ nextTurn s = some .engine →
      t.rd = s.rd ∧ t.last = s.last ∧ (t.udr = true → s.udr = true) ∧ t.frame = s.frame ∧ t.pops = s.pops) ∧
    (nextTurn s = some .consumer →
      t = { s with rd := t.rd, last := t.last, udr := t.udr, frame := t.frame, pops := t.pops, sched := t.sched })

/-- A value of `FREE` stays a valid lower bound while only the consumer acts (44_ring_buffer.md R204; 70_reset_and_hazards.md R291). -/
def Obligations.ConsumerStepNeverLowersTheRoom : Prop :=
  ∀ s t, Sound s → nextTurn s = some .consumer → step s = .next t → free s ≤ free t ∧ free t ≤ free s + 1

/-- Frames drained: over any run without reset in which the producer side attempts no more pushes than the `FREE` of its first state, whatever
else the host does and however many `POP`s, empty ones included, fall between, the difference of two readings of `RB_RD` modulo `CAP`
is the number of frames popped, at most `CAP - 1`; every attempt is accepted, the frames popped are the oldest, and the room grows by
the frames popped less those pushed (44_ring_buffer.md R198; 70_reset_and_hazards.md R292). Where `n` non-empty `POP`s come alone, the
difference is `n` and no underrun is recorded. -/
def Obligations.DrainedFramesAreTheReadIndexDifference : Prop :=
  (∀ s (n : Nat), Sound s → Turn.reset ∉ s.sched → countRun pushAttempts n s ≤ free s →
    ∃ t l, runSteps n s = .next t ∧
      ((t.rd : Int) - (s.rd : Int)) % (2 : Int) ^ s.k = countRun framesPopped n s ∧
      countRun framesPopped n s ≤ 2 ^ s.k - 1 ∧
      l.length = countRun pushAttempts n s ∧ queue t = (queue s ++ l).drop (countRun framesPopped n s) ∧
      free t + countRun pushAttempts n s = free s + countRun framesPopped n s ∧ (t.ovr = true → s.ovr = true)) ∧
  (∀ s (n : Nat) (rest : List Turn), Sound s → n ≤ occ s → n ≤ s.pops → s.sched = List.replicate n .consumer ++ rest →
    ∃ t, runSteps n s = .next t ∧ ((t.rd : Int) - (s.rd : Int)) % (2 : Int) ^ s.k = n ∧ free t = free s + n ∧
      queue t = (queue s).drop n ∧ t.udr = s.udr)

/-- While `PAUSE = 1` a burst freezes every channel, `DIV` and `TICKCNT`, wherever the consumer's steps fall (43_mixer.md R179). -/
def Obligations.PausedBurstFreezesTheSound : Prop :=
  ∀ s (l rest : List Turn), s.pause = true → s.sched = l ++ rest → (∀ u ∈ l, u = .engine ∨ u = .consumer) →
    ∃ t, runSteps l.length s = .next t ∧ t.banks = s.banks ∧ t.div = s.div ∧ t.tickcnt = s.tickcnt ∧ t.pause = true

/-- Tick cadence: in a burst of `n` accepted, unpaused frames that begins at a tick boundary, the tick steps are those of frames
`1, 1 + SPT, 1 + 2*SPT, ...` (42_envelope.md R165). -/
def Obligations.TicksFallEverySptFrames : Prop :=
  ∀ s (n : Nat) (rest : List Turn), Sound s → s.pause = false → s.div = 0#16 → n ≤ free s → n ≤ s.rcnt.toNat →
    s.sched = List.replicate n .engine ++ rest →
    ∃ t, runSteps n s = .next t ∧ t.div.toNat = n % s.spt.toNat ∧
      t.tickcnt.toNat = (s.tickcnt.toNat + (n + s.spt.toNat - 1) / s.spt.toNat) % 65536 ∧
      t.rcnt.toNat = s.rcnt.toNat - n ∧ t.ovr = s.ovr

/-- `SPT` lowered to a value `<= DIV`: the next accepted, unpaused frame performs no tick and sets `DIV` to 0 (70_reset_and_hazards.md
R296). -/
def Obligations.LoweredSptEndsThePeriodWithTheNextFrame : Prop :=
  ∀ s, nextTurn s = some .engine → s.rcnt ≠ 0#16 → free s ≠ 0 → s.pause = false → s.div ≠ 0#16 → s.spt.toNat ≤ s.div.toNat →
    ∃ t, step s = .next t ∧ t.div = 0#16 ∧ t.tickcnt = s.tickcnt ∧ t.banks = s.banks.map Bank.advance

/-- "`DIV < SPT` holds whenever the host leaves `SPT` alone" (10_state.md R28). -/
def Obligations.DivStaysBelowSptWhileSptIsLeftAlone : Prop :=
  ∀ s t, Sound s → s.div.toNat < s.spt.toNat → step s = .next t → t.spt = s.spt → t.div.toNat < t.spt.toNat

/-- The flags "change no behaviour: no rule of SB reads a flag except `RD.STATUS`" (60_exceptions.md R253): with other flags every step
does the same but for the flags and, where the step is the host's and runs `RD.STATUS`, the answer, which is then the status word of
those flags; and every operation but `RD.STATUS` does the same but for the flags. -/
def Obligations.FlagsChangeNoBehaviour : Prop :=
  (∀ s t o u c, step s = .next t →
    ∃ o' u' c' v, step (withFlags o u c s) = .next { withFlags o' u' c' t with rdata := v } ∧
      (v = t.rdata ∨
        nextTurn s = some .host ∧ s.rcnt = 0#16 ∧ (∃ w rest, s.bus = w :: rest ∧ decode (.bus w) = .ok .rdStatus) ∧
          v = statusWord (withFlags o u c s))) ∧
  (∀ i s t o u c, i ≠ .rdStatus → exec i s = .next t →
    ∃ o' u' c', exec i (withFlags o u c s) = .next (withFlags o' u' c' t))

/-- Equal readings mean equal storages: the canonical form is unique (log 11). -/
def Obligations.CanonicalStorageIsDeterminedByItsReadings : Prop :=
  ∀ m n : Memory, m.wf → n.wf → (∀ a, m.read a = n.read a) → m = n

/-- The two executions of 95_test_vectors.md section 4, a consumer step outside and inside a burst of 3 from reset (`NCH = 1`, `K = 2`):
the model admits both (20_memory.md R71; 43_mixer.md R177). -/
def Obligations.BothInterleavingsOfABurstAreAdmitted : Prop :=
  (∃ t, runSteps 4 { State.resetOf ⟨1, 2, 1#16⟩ with
      bus := [0x100300000003#45], sched := [.host, .engine, .engine, .engine] } = .next t ∧
    t.rcnt = 0#16 ∧ t.ovr = true ∧ occ t = 3 ∧ t.tickcnt = 0#16) ∧
  (∃ t, runSteps 5 { State.resetOf ⟨1, 2, 1#16⟩ with
      bus := [0x100300000003#45], pops := 1, sched := [.host, .engine, .consumer, .engine, .engine] } = .next t ∧
    t.rcnt = 0#16 ∧ t.ovr = true ∧ occ t = 3 ∧ t.tickcnt = 1#16 ∧ t.div = 0#16 ∧ t.frame = 0#32 ∧ t.rd = 1)

/-- The pseudo-operations (30_encoding.md R95): what each expands to, and that `ATTACH` leaves the bank reset but enabled. -/
def Obligations.PseudoOperationsExpandAsTabled : Prop :=
  (∀ n : Half, expand (.render n) = [.wrRender (BitVec.ofNat 32 n.toNat)]) ∧
  (∀ l r : Half, expand (.push l r) = [.wrRbPush ((r.setWidth 32 <<< 16) ||| l.setWidth 32)]) ∧
  (∀ (c : Chan) (inc : Half), expand (.note c inc) = [.wrChNote c (BitVec.ofNat 32 inc.toNat)]) ∧
  (∀ c : Chan, expand (.rest c) = [.wrChInc c 0#32] ∧ expand (.keyoff c) = [.wrChKeyoff c 0#32] ∧
    expand (.chreset c) = [.wrChReset c 0#32] ∧ expand (.attach c) = [.wrChReset c 0#32, .wrChEn c 1#32] ∧
    expand (.stop c) = [.wrChEn c 0#32]) ∧
  (∀ b : Bool, expand (.pause b) = [.wrCtrl (BitVec.ofNat 32 b.toNat)]) ∧ expand .clrflags = [.wrStatus 7#32] ∧
  (∀ (c : Chan) (s : State) (b : Bank), s.banks[c.toNat]? = some b →
    ∃ t, exec (.wrChReset c 0#32) s = .next t ∧
      exec (.wrChEn c 1#32) t = .next
        { s with banks := s.banks.set c.toNat ⟨true, 0#2, 0#8, 0#8, 0#8, 0#16, 0#16, 0#8, false⟩ })
end

