-- ==== Sys2Proof/Laws/State.lean ====
section
/-! SUPPORT. One lemma per field per named update of State: what it writes and what it leaves alone. -/

namespace Sys2Proof.Machine

section setOvr
@[simp] theorem setOvr_pause (s : State) : (setOvr s).pause = s.pause := rfl
@[simp] theorem setOvr_ovr (s : State) : (setOvr s).ovr = true := rfl
@[simp] theorem setOvr_udr (s : State) : (setOvr s).udr = s.udr := rfl
@[simp] theorem setOvr_cfgerr (s : State) : (setOvr s).cfgerr = s.cfgerr := rfl
@[simp] theorem setOvr_spt (s : State) : (setOvr s).spt = s.spt := rfl
@[simp] theorem setOvr_div (s : State) : (setOvr s).div = s.div := rfl
@[simp] theorem setOvr_tickcnt (s : State) : (setOvr s).tickcnt = s.tickcnt := rfl
@[simp] theorem setOvr_rcnt (s : State) : (setOvr s).rcnt = s.rcnt := rfl
@[simp] theorem setOvr_mem (s : State) : (setOvr s).mem = s.mem := rfl
@[simp] theorem setOvr_wr (s : State) : (setOvr s).wr = s.wr := rfl
@[simp] theorem setOvr_rd (s : State) : (setOvr s).rd = s.rd := rfl
@[simp] theorem setOvr_last (s : State) : (setOvr s).last = s.last := rfl
@[simp] theorem setOvr_banks (s : State) : (setOvr s).banks = s.banks := rfl
@[simp] theorem setOvr_k (s : State) : (setOvr s).k = s.k := rfl
@[simp] theorem setOvr_sptReset (s : State) : (setOvr s).sptReset = s.sptReset := rfl
@[simp] theorem setOvr_rdata (s : State) : (setOvr s).rdata = s.rdata := rfl
@[simp] theorem setOvr_frame (s : State) : (setOvr s).frame = s.frame := rfl
@[simp] theorem setOvr_bus (s : State) : (setOvr s).bus = s.bus := rfl
@[simp] theorem setOvr_pops (s : State) : (setOvr s).pops = s.pops := rfl
@[simp] theorem setOvr_sched (s : State) : (setOvr s).sched = s.sched := rfl
end setOvr

section setUdr
@[simp] theorem setUdr_pause (s : State) : (setUdr s).pause = s.pause := rfl
@[simp] theorem setUdr_ovr (s : State) : (setUdr s).ovr = s.ovr := rfl
@[simp] theorem setUdr_udr (s : State) : (setUdr s).udr = true := rfl
@[simp] theorem setUdr_cfgerr (s : State) : (setUdr s).cfgerr = s.cfgerr := rfl
@[simp] theorem setUdr_spt (s : State) : (setUdr s).spt = s.spt := rfl
@[simp] theorem setUdr_div (s : State) : (setUdr s).div = s.div := rfl
@[simp] theorem setUdr_tickcnt (s : State) : (setUdr s).tickcnt = s.tickcnt := rfl
@[simp] theorem setUdr_rcnt (s : State) : (setUdr s).rcnt = s.rcnt := rfl
@[simp] theorem setUdr_mem (s : State) : (setUdr s).mem = s.mem := rfl
@[simp] theorem setUdr_wr (s : State) : (setUdr s).wr = s.wr := rfl
@[simp] theorem setUdr_rd (s : State) : (setUdr s).rd = s.rd := rfl
@[simp] theorem setUdr_last (s : State) : (setUdr s).last = s.last := rfl
@[simp] theorem setUdr_banks (s : State) : (setUdr s).banks = s.banks := rfl
@[simp] theorem setUdr_k (s : State) : (setUdr s).k = s.k := rfl
@[simp] theorem setUdr_sptReset (s : State) : (setUdr s).sptReset = s.sptReset := rfl
@[simp] theorem setUdr_rdata (s : State) : (setUdr s).rdata = s.rdata := rfl
@[simp] theorem setUdr_frame (s : State) : (setUdr s).frame = s.frame := rfl
@[simp] theorem setUdr_bus (s : State) : (setUdr s).bus = s.bus := rfl
@[simp] theorem setUdr_pops (s : State) : (setUdr s).pops = s.pops := rfl
@[simp] theorem setUdr_sched (s : State) : (setUdr s).sched = s.sched := rfl
end setUdr

section setCfgerr
@[simp] theorem setCfgerr_pause (s : State) : (setCfgerr s).pause = s.pause := rfl
@[simp] theorem setCfgerr_ovr (s : State) : (setCfgerr s).ovr = s.ovr := rfl
@[simp] theorem setCfgerr_udr (s : State) : (setCfgerr s).udr = s.udr := rfl
@[simp] theorem setCfgerr_cfgerr (s : State) : (setCfgerr s).cfgerr = true := rfl
@[simp] theorem setCfgerr_spt (s : State) : (setCfgerr s).spt = s.spt := rfl
@[simp] theorem setCfgerr_div (s : State) : (setCfgerr s).div = s.div := rfl
@[simp] theorem setCfgerr_tickcnt (s : State) : (setCfgerr s).tickcnt = s.tickcnt := rfl
@[simp] theorem setCfgerr_rcnt (s : State) : (setCfgerr s).rcnt = s.rcnt := rfl
@[simp] theorem setCfgerr_mem (s : State) : (setCfgerr s).mem = s.mem := rfl
@[simp] theorem setCfgerr_wr (s : State) : (setCfgerr s).wr = s.wr := rfl
@[simp] theorem setCfgerr_rd (s : State) : (setCfgerr s).rd = s.rd := rfl
@[simp] theorem setCfgerr_last (s : State) : (setCfgerr s).last = s.last := rfl
@[simp] theorem setCfgerr_banks (s : State) : (setCfgerr s).banks = s.banks := rfl
@[simp] theorem setCfgerr_k (s : State) : (setCfgerr s).k = s.k := rfl
@[simp] theorem setCfgerr_sptReset (s : State) : (setCfgerr s).sptReset = s.sptReset := rfl
@[simp] theorem setCfgerr_rdata (s : State) : (setCfgerr s).rdata = s.rdata := rfl
@[simp] theorem setCfgerr_frame (s : State) : (setCfgerr s).frame = s.frame := rfl
@[simp] theorem setCfgerr_bus (s : State) : (setCfgerr s).bus = s.bus := rfl
@[simp] theorem setCfgerr_pops (s : State) : (setCfgerr s).pops = s.pops := rfl
@[simp] theorem setCfgerr_sched (s : State) : (setCfgerr s).sched = s.sched := rfl
end setCfgerr

section clearFlags
@[simp] theorem clearFlags_pause (d : Word) (s : State) : (clearFlags d s).pause = s.pause := rfl
@[simp] theorem clearFlags_ovr (d : Word) (s : State) : (clearFlags d s).ovr = (s.ovr && !fieldBit d 0) := rfl
@[simp] theorem clearFlags_udr (d : Word) (s : State) : (clearFlags d s).udr = (s.udr && !fieldBit d 1) := rfl
@[simp] theorem clearFlags_cfgerr (d : Word) (s : State) : (clearFlags d s).cfgerr = (s.cfgerr && !fieldBit d 2) := rfl
@[simp] theorem clearFlags_spt (d : Word) (s : State) : (clearFlags d s).spt = s.spt := rfl
@[simp] theorem clearFlags_div (d : Word) (s : State) : (clearFlags d s).div = s.div := rfl
@[simp] theorem clearFlags_tickcnt (d : Word) (s : State) : (clearFlags d s).tickcnt = s.tickcnt := rfl
@[simp] theorem clearFlags_rcnt (d : Word) (s : State) : (clearFlags d s).rcnt = s.rcnt := rfl
@[simp] theorem clearFlags_mem (d : Word) (s : State) : (clearFlags d s).mem = s.mem := rfl
@[simp] theorem clearFlags_wr (d : Word) (s : State) : (clearFlags d s).wr = s.wr := rfl
@[simp] theorem clearFlags_rd (d : Word) (s : State) : (clearFlags d s).rd = s.rd := rfl
@[simp] theorem clearFlags_last (d : Word) (s : State) : (clearFlags d s).last = s.last := rfl
@[simp] theorem clearFlags_banks (d : Word) (s : State) : (clearFlags d s).banks = s.banks := rfl
@[simp] theorem clearFlags_k (d : Word) (s : State) : (clearFlags d s).k = s.k := rfl
@[simp] theorem clearFlags_sptReset (d : Word) (s : State) : (clearFlags d s).sptReset = s.sptReset := rfl
@[simp] theorem clearFlags_rdata (d : Word) (s : State) : (clearFlags d s).rdata = s.rdata := rfl
@[simp] theorem clearFlags_frame (d : Word) (s : State) : (clearFlags d s).frame = s.frame := rfl
@[simp] theorem clearFlags_bus (d : Word) (s : State) : (clearFlags d s).bus = s.bus := rfl
@[simp] theorem clearFlags_pops (d : Word) (s : State) : (clearFlags d s).pops = s.pops := rfl
@[simp] theorem clearFlags_sched (d : Word) (s : State) : (clearFlags d s).sched = s.sched := rfl
end clearFlags

section answer
@[simp] theorem answer_pause (v : Word) (s : State) : (answer v s).pause = s.pause := rfl
@[simp] theorem answer_ovr (v : Word) (s : State) : (answer v s).ovr = s.ovr := rfl
@[simp] theorem answer_udr (v : Word) (s : State) : (answer v s).udr = s.udr := rfl
@[simp] theorem answer_cfgerr (v : Word) (s : State) : (answer v s).cfgerr = s.cfgerr := rfl
@[simp] theorem answer_spt (v : Word) (s : State) : (answer v s).spt = s.spt := rfl
@[simp] theorem answer_div (v : Word) (s : State) : (answer v s).div = s.div := rfl
@[simp] theorem answer_tickcnt (v : Word) (s : State) : (answer v s).tickcnt = s.tickcnt := rfl
@[simp] theorem answer_rcnt (v : Word) (s : State) : (answer v s).rcnt = s.rcnt := rfl
@[simp] theorem answer_mem (v : Word) (s : State) : (answer v s).mem = s.mem := rfl
@[simp] theorem answer_wr (v : Word) (s : State) : (answer v s).wr = s.wr := rfl
@[simp] theorem answer_rd (v : Word) (s : State) : (answer v s).rd = s.rd := rfl
@[simp] theorem answer_last (v : Word) (s : State) : (answer v s).last = s.last := rfl
@[simp] theorem answer_banks (v : Word) (s : State) : (answer v s).banks = s.banks := rfl
@[simp] theorem answer_k (v : Word) (s : State) : (answer v s).k = s.k := rfl
@[simp] theorem answer_sptReset (v : Word) (s : State) : (answer v s).sptReset = s.sptReset := rfl
@[simp] theorem answer_rdata (v : Word) (s : State) : (answer v s).rdata = v := rfl
@[simp] theorem answer_frame (v : Word) (s : State) : (answer v s).frame = s.frame := rfl
@[simp] theorem answer_bus (v : Word) (s : State) : (answer v s).bus = s.bus := rfl
@[simp] theorem answer_pops (v : Word) (s : State) : (answer v s).pops = s.pops := rfl
@[simp] theorem answer_sched (v : Word) (s : State) : (answer v s).sched = s.sched := rfl
end answer

section updateBank
@[simp] theorem updateBank_pause (c : Chan) (f : Bank → Bank) (s : State) : (updateBank c f s).pause = s.pause := rfl
@[simp] theorem updateBank_ovr (c : Chan) (f : Bank → Bank) (s : State) : (updateBank c f s).ovr = s.ovr := rfl
@[simp] theorem updateBank_udr (c : Chan) (f : Bank → Bank) (s : State) : (updateBank c f s).udr = s.udr := rfl
@[simp] theorem updateBank_cfgerr (c : Chan) (f : Bank → Bank) (s : State) : (updateBank c f s).cfgerr = s.cfgerr := rfl
@[simp] theorem updateBank_spt (c : Chan) (f : Bank → Bank) (s : State) : (updateBank c f s).spt = s.spt := rfl
@[simp] theorem updateBank_div (c : Chan) (f : Bank → Bank) (s : State) : (updateBank c f s).div = s.div := rfl
@[simp] theorem updateBank_tickcnt (c : Chan) (f : Bank → Bank) (s : State) : (updateBank c f s).tickcnt = s.tickcnt := rfl
@[simp] theorem updateBank_rcnt (c : Chan) (f : Bank → Bank) (s : State) : (updateBank c f s).rcnt = s.rcnt := rfl
@[simp] theorem updateBank_mem (c : Chan) (f : Bank → Bank) (s : State) : (updateBank c f s).mem = s.mem := rfl
@[simp] theorem updateBank_wr (c : Chan) (f : Bank → Bank) (s : State) : (updateBank c f s).wr = s.wr := rfl
@[simp] theorem updateBank_rd (c : Chan) (f : Bank → Bank) (s : State) : (updateBank c f s).rd = s.rd := rfl
@[simp] theorem updateBank_last (c : Chan) (f : Bank → Bank) (s : State) : (updateBank c f s).last = s.last := rfl
@[simp] theorem updateBank_banks (c : Chan) (f : Bank → Bank) (s : State) : (updateBank c f s).banks = s.banks.modify c.toNat f := rfl
@[simp] theorem updateBank_k (c : Chan) (f : Bank → Bank) (s : State) : (updateBank c f s).k = s.k := rfl
@[simp] theorem updateBank_sptReset (c : Chan) (f : Bank → Bank) (s : State) : (updateBank c f s).sptReset = s.sptReset := rfl
@[simp] theorem updateBank_rdata (c : Chan) (f : Bank → Bank) (s : State) : (updateBank c f s).rdata = s.rdata := rfl
@[simp] theorem updateBank_frame (c : Chan) (f : Bank → Bank) (s : State) : (updateBank c f s).frame = s.frame := rfl
@[simp] theorem updateBank_bus (c : Chan) (f : Bank → Bank) (s : State) : (updateBank c f s).bus = s.bus := rfl
@[simp] theorem updateBank_pops (c : Chan) (f : Bank → Bank) (s : State) : (updateBank c f s).pops = s.pops := rfl
@[simp] theorem updateBank_sched (c : Chan) (f : Bank → Bank) (s : State) : (updateBank c f s).sched = s.sched := rfl
end updateBank

section tickStep
@[simp] theorem tickStep_pause (s : State) : (tickStep s).pause = s.pause := rfl
@[simp] theorem tickStep_ovr (s : State) : (tickStep s).ovr = s.ovr := rfl
@[simp] theorem tickStep_udr (s : State) : (tickStep s).udr = s.udr := rfl
@[simp] theorem tickStep_cfgerr (s : State) : (tickStep s).cfgerr = s.cfgerr := rfl
@[simp] theorem tickStep_spt (s : State) : (tickStep s).spt = s.spt := rfl
@[simp] theorem tickStep_div (s : State) : (tickStep s).div = s.div := rfl
@[simp] theorem tickStep_tickcnt (s : State) : (tickStep s).tickcnt = s.tickcnt + 1#16 := rfl
@[simp] theorem tickStep_rcnt (s : State) : (tickStep s).rcnt = s.rcnt := rfl
@[simp] theorem tickStep_mem (s : State) : (tickStep s).mem = s.mem := rfl
@[simp] theorem tickStep_wr (s : State) : (tickStep s).wr = s.wr := rfl
@[simp] theorem tickStep_rd (s : State) : (tickStep s).rd = s.rd := rfl
@[simp] theorem tickStep_last (s : State) : (tickStep s).last = s.last := rfl
@[simp] theorem tickStep_banks (s : State) : (tickStep s).banks = s.banks.map Bank.tick := rfl
@[simp] theorem tickStep_k (s : State) : (tickStep s).k = s.k := rfl
@[simp] theorem tickStep_sptReset (s : State) : (tickStep s).sptReset = s.sptReset := rfl
@[simp] theorem tickStep_rdata (s : State) : (tickStep s).rdata = s.rdata := rfl
@[simp] theorem tickStep_frame (s : State) : (tickStep s).frame = s.frame := rfl
@[simp] theorem tickStep_bus (s : State) : (tickStep s).bus = s.bus := rfl
@[simp] theorem tickStep_pops (s : State) : (tickStep s).pops = s.pops := rfl
@[simp] theorem tickStep_sched (s : State) : (tickStep s).sched = s.sched := rfl
end tickStep

section dropTurn
@[simp] theorem dropTurn_pause (s : State) : (dropTurn s).pause = s.pause := rfl
@[simp] theorem dropTurn_ovr (s : State) : (dropTurn s).ovr = s.ovr := rfl
@[simp] theorem dropTurn_udr (s : State) : (dropTurn s).udr = s.udr := rfl
@[simp] theorem dropTurn_cfgerr (s : State) : (dropTurn s).cfgerr = s.cfgerr := rfl
@[simp] theorem dropTurn_spt (s : State) : (dropTurn s).spt = s.spt := rfl
@[simp] theorem dropTurn_div (s : State) : (dropTurn s).div = s.div := rfl
@[simp] theorem dropTurn_tickcnt (s : State) : (dropTurn s).tickcnt = s.tickcnt := rfl
@[simp] theorem dropTurn_rcnt (s : State) : (dropTurn s).rcnt = s.rcnt := rfl
@[simp] theorem dropTurn_mem (s : State) : (dropTurn s).mem = s.mem := rfl
@[simp] theorem dropTurn_wr (s : State) : (dropTurn s).wr = s.wr := rfl
@[simp] theorem dropTurn_rd (s : State) : (dropTurn s).rd = s.rd := rfl
@[simp] theorem dropTurn_last (s : State) : (dropTurn s).last = s.last := rfl
@[simp] theorem dropTurn_banks (s : State) : (dropTurn s).banks = s.banks := rfl
@[simp] theorem dropTurn_k (s : State) : (dropTurn s).k = s.k := rfl
@[simp] theorem dropTurn_sptReset (s : State) : (dropTurn s).sptReset = s.sptReset := rfl
@[simp] theorem dropTurn_rdata (s : State) : (dropTurn s).rdata = s.rdata := rfl
@[simp] theorem dropTurn_frame (s : State) : (dropTurn s).frame = s.frame := rfl
@[simp] theorem dropTurn_bus (s : State) : (dropTurn s).bus = s.bus := rfl
@[simp] theorem dropTurn_pops (s : State) : (dropTurn s).pops = s.pops := rfl
@[simp] theorem dropTurn_sched (s : State) : (dropTurn s).sched = s.sched.tail := rfl
end dropTurn

/-- What a tick leaves of a bank: every field but `LEVEL` (42_envelope.md R161). -/
theorem Bank.tick_eq (b : Bank) : b.tick = { b with level := b.tick.level } := by
  unfold Bank.tick
  split <;> [(split <;> [(split <;> rfl); rfl]); rfl]

/-- What a phase advance leaves of a bank: every field but `ACC` (41_oscillator.md R140). -/
theorem Bank.advance_eq (b : Bank) : b.advance = { b with acc := b.advance.acc } := by
  unfold Bank.advance
  split <;> rfl

@[simp] theorem Bank.tick_active (b : Bank) : b.tick.active = b.active := by
  rw [Bank.tick_eq]; rfl

@[simp] theorem Bank.advance_active (b : Bank) : b.advance.active = b.active := by
  rw [Bank.advance_eq]; rfl

/-- `CAP` is at least 1. -/
theorem State.cap_pos (s : State) : 0 < s.cap := Nat.two_pow_pos s.k

@[simp] theorem State.config_nch (s : State) : s.config.nch = s.banks.length := rfl
@[simp] theorem State.config_k (s : State) : s.config.k = s.k := rfl
@[simp] theorem State.config_sptReset (s : State) : s.config.sptReset = s.sptReset := rfl

/-- The parameters of a reset state are the ones it was built from. -/
@[simp] theorem State.config_resetOf (c : Config) : (State.resetOf c).config = c := by
  cases c
  simp [State.config, State.nch, State.resetOf]

/-- Two states with the same parameters' fields have the same parameters. -/
theorem State.config_congr {s t : State} (hb : t.banks.length = s.banks.length) (hk : t.k = s.k)
    (hr : t.sptReset = s.sptReset) : t.config = s.config := by
  simp [State.config, State.nch, hb, hk, hr]

end Sys2Proof.Machine
end

