-- ==== Sys2Proof/Laws/Memory.lean ====
section
/-! SUPPORT. The laws of the ring storage: the canonical form is kept by every write, and a read gives what was last written. -/

namespace Sys2Proof.Machine

/-- Every entry of a written storage is an old one or the new one. -/
theorem Memory.mem_write {m : Memory} {a : Nat} {v : Word} {x : Nat × Word} (h : x ∈ m.write a v) :
    x ∈ m ∨ (x = (a, v) ∧ v ≠ 0#32) := by
  induction m with
  | nil =>
    unfold Memory.write at h
    split at h <;> simp_all
  | cons y r ih =>
    unfold Memory.write at h
    split at h
    · split at h <;> simp_all
      tauto
    · split at h
      · split at h <;> simp_all
        tauto
      · simp only [List.mem_cons] at h ⊢
        rcases h with h | h
        · exact Or.inl (Or.inl h)
        · rcases ih h with h | h
          · exact Or.inl (Or.inr h)
          · exact Or.inr h

/-- A write keeps the canonical form. -/
theorem Memory.write_wf {m : Memory} (hm : m.wf) (a : Nat) (v : Word) : (m.write a v).wf := by
  induction m with
  | nil =>
    unfold Memory.write
    split <;> simp_all [Memory.wf]
  | cons y r ih =>
    have hr : Memory.wf r := ⟨(List.pairwise_cons.mp hm.1).2, fun x hx => hm.2 x (List.mem_cons_of_mem _ hx)⟩
    have hy : ∀ x ∈ r, y.1 < x.1 := (List.pairwise_cons.mp hm.1).1
    have hy0 : y.2 ≠ 0#32 := hm.2 y List.mem_cons_self
    unfold Memory.write
    split
    · rename_i hlt
      split
      · exact hm
      · rename_i hv
        refine ⟨List.pairwise_cons.mpr ⟨?_, hm.1⟩, ?_⟩
        · intro x hx
          rcases List.mem_cons.mp hx with rfl | hx
          · exact hlt
          · exact lt_trans hlt (hy x hx)
        · intro x hx
          rcases List.mem_cons.mp hx with rfl | hx
          · exact hv
          · exact hm.2 x hx
    · split
      · rename_i ha
        split
        · exact hr
        · rename_i hv
          refine ⟨List.pairwise_cons.mpr ⟨fun x hx => ha ▸ hy x hx, hr.1⟩, ?_⟩
          intro x hx
          rcases List.mem_cons.mp hx with rfl | hx
          · exact hv
          · exact hr.2 x hx
      · rename_i hlt hne
        have hw := ih hr
        refine ⟨List.pairwise_cons.mpr ⟨?_, hw.1⟩, ?_⟩
        · intro x hx
          rcases Memory.mem_write hx with hx | ⟨rfl, _⟩
          · exact hy x hx
          · exact lt_of_le_of_ne (not_lt.mp hlt) (Ne.symm hne)
        · intro x hx
          rcases List.mem_cons.mp hx with rfl | hx
          · exact hy0
          · exact hw.2 x hx

/-- Below every listed slot the storage reads 0. -/
theorem Memory.read_of_lt {m : Memory} {a : Nat} (h : ∀ x ∈ m, a < x.1) : m.read a = 0#32 := by
  induction m with
  | nil => rfl
  | cons y r ih =>
    have hy := h y List.mem_cons_self
    have hne : y.1 ≠ a := by omega
    simp only [Memory.read, if_neg hne]
    exact ih fun x hx => h x (List.mem_cons_of_mem _ hx)

/-- A read after a write: the written slot reads the written frame, every other slot what it read before. -/
theorem Memory.read_write {m : Memory} (hm : m.wf) (a b : Nat) (v : Word) :
    (m.write a v).read b = if b = a then v else m.read b := by
  induction m with
  | nil =>
    unfold Memory.write
    by_cases hv : v = 0#32 <;> by_cases hb : b = a <;> simp_all [Memory.read]
    intro h
    exact absurd h.symm hb
  | cons y r ih =>
    have hr : Memory.wf r := ⟨(List.pairwise_cons.mp hm.1).2, fun x hx => hm.2 x (List.mem_cons_of_mem _ hx)⟩
    have hy : ∀ x ∈ r, y.1 < x.1 := (List.pairwise_cons.mp hm.1).1
    unfold Memory.write
    by_cases h1 : a < y.1
    · rw [if_pos h1]
      have hlow : Memory.read (y :: r) a = 0#32 := by
        refine Memory.read_of_lt fun x hx => ?_
        rcases List.mem_cons.mp hx with rfl | hx
        · exact h1
        · exact lt_trans h1 (hy x hx)
      by_cases hv : v = 0#32
      · rw [if_pos hv]
        by_cases hb : b = a
        · rw [if_pos hb, hb, hlow, hv]
        · rw [if_neg hb]
      · rw [if_neg hv]
        by_cases hb : b = a
        · simp [Memory.read, hb]
        · have hb' : a ≠ b := Ne.symm hb
          rw [if_neg hb, Memory.read, if_neg hb']
    · rw [if_neg h1]
      by_cases h2 : a = y.1
      · rw [if_pos h2]
        have hlow : Memory.read r a = 0#32 := Memory.read_of_lt fun x hx => h2 ▸ hy x hx
        by_cases hv : v = 0#32
        · rw [if_pos hv]
          by_cases hb : b = a
          · rw [if_pos hb, hb, hlow, hv]
          · have hb' : y.1 ≠ b := fun h => hb (h2.trans h).symm
            rw [if_neg hb, Memory.read, if_neg hb']
        · rw [if_neg hv]
          by_cases hb : b = a
          · simp [Memory.read, hb]
          · have hb' : a ≠ b := Ne.symm hb
            have hb'' : y.1 ≠ b := fun h => hb (h2.trans h).symm
            rw [if_neg hb, Memory.read, if_neg hb', Memory.read, if_neg hb'']
      · rw [if_neg h2]
        by_cases hyb : y.1 = b
        · have hb : b ≠ a := fun h => h2 (hyb.trans h).symm
          rw [if_neg hb, Memory.read, if_pos hyb, Memory.read, if_pos hyb]
        · rw [Memory.read, if_neg hyb, ih hr, Memory.read, if_neg hyb]

end Sys2Proof.Machine
end

