-- ==== Sys2Proof/Laws/Decode.lean ====
section
/-! SUPPORT. The fields of a transaction word and of a channel address, taken apart and put together again. -/

namespace Sys2Proof

/-- The bits of a transaction word (30_encoding.md R81). -/
theorem busWord_bit (rw : Bool) (a : Addr) (d : Word) (i : Nat) :
    (busWord rw a d).getLsbD i =
      if i < 32 then d.getLsbD i else if i - 32 < 12 then a.getLsbD (i - 32) else (BitVec.ofBool rw).getLsbD (i - 32 - 12) :=
  (BitVec.getLsbD_append (x := BitVec.ofBool rw ++ a) (y := d) (i := i)).trans (by rw [BitVec.getLsbD_append])

/-- The bits of a channel address (30_encoding.md R83). -/
theorem chanAddr_bit (c : Chan) (o : BitVec 4) (i : Nat) :
    (chanAddr c o).getLsbD i =
      if i < 4 then o.getLsbD i else if i - 4 < 7 then c.getLsbD (i - 4) else (1#1).getLsbD (i - 4 - 7) :=
  (BitVec.getLsbD_append (x := 1#1 ++ c) (y := o) (i := i)).trans (by rw [BitVec.getLsbD_append])

@[simp] theorem busRw_busWord (rw : Bool) (a : Addr) (d : Word) : busRw (busWord rw a d) = rw := by
  unfold busRw
  rw [busWord_bit]
  cases rw <;> rfl

@[simp] theorem busAddr_busWord (rw : Bool) (a : Addr) (d : Word) : busAddr (busWord rw a d) = a := by
  apply BitVec.eq_of_getLsbD_eq
  intro i hi
  have h : (busWord rw a d).getLsbD (32 + i) = a.getLsbD i := by
    rw [busWord_bit, if_neg (by omega), if_pos (by omega), Nat.add_sub_cancel_left]
  rw [busAddr, BitVec.getLsbD_extractLsb', h]
  simp [hi]

@[simp] theorem busData_busWord (rw : Bool) (a : Addr) (d : Word) : busData (busWord rw a d) = d := by
  apply BitVec.eq_of_getLsbD_eq
  intro i hi
  have h : (busWord rw a d).getLsbD (0 + i) = d.getLsbD i := by
    rw [busWord_bit, if_pos (by omega), Nat.zero_add]
  rw [busData, BitVec.getLsbD_extractLsb', h]
  simp [hi]

/-- A transaction word is its three fields (30_encoding.md R81). -/
theorem busWord_fields (t : BusWord) : busWord (busRw t) (busAddr t) (busData t) = t := by
  apply BitVec.eq_of_getLsbD_eq
  intro i hi
  rw [busWord_bit]
  by_cases h1 : i < 32
  · rw [if_pos h1, busData, BitVec.getLsbD_extractLsb', Nat.zero_add]
    simp [h1]
  · rw [if_neg h1]
    by_cases h2 : i - 32 < 12
    · rw [if_pos h2, busAddr, BitVec.getLsbD_extractLsb', show 32 + (i - 32) = i by omega]
      simp [h2]
    · have h3 : i = 44 := by omega
      subst h3
      simp [busRw]

@[simp] theorem chanAddr_region (c : Chan) (o : BitVec 4) : (chanAddr c o).getLsbD 11 = true := by
  rw [chanAddr_bit]
  rfl

@[simp] theorem addrChan_chanAddr (c : Chan) (o : BitVec 4) : addrChan (chanAddr c o) = c := by
  apply BitVec.eq_of_getLsbD_eq
  intro i hi
  have h : (chanAddr c o).getLsbD (4 + i) = c.getLsbD i := by
    rw [chanAddr_bit, if_neg (by omega), if_pos (by omega), Nat.add_sub_cancel_left]
  rw [addrChan, BitVec.getLsbD_extractLsb', h]
  simp [hi]

@[simp] theorem addrOff_chanAddr (c : Chan) (o : BitVec 4) : addrOff (chanAddr c o) = o := by
  apply BitVec.eq_of_getLsbD_eq
  intro i hi
  have h : (chanAddr c o).getLsbD (0 + i) = o.getLsbD i := by
    rw [chanAddr_bit, if_pos (by omega), Nat.zero_add]
  rw [addrOff, BitVec.getLsbD_extractLsb', h]
  simp [hi]

/-- An address of the channel region is its two fields (30_encoding.md R83). -/
theorem chanAddr_fields (a : Addr) (h : a.getLsbD 11 = true) : chanAddr (addrChan a) (addrOff a) = a := by
  apply BitVec.eq_of_getLsbD_eq
  intro i hi
  rw [chanAddr_bit]
  by_cases h1 : i < 4
  · rw [if_pos h1, addrOff, BitVec.getLsbD_extractLsb', Nat.zero_add]
    simp [h1]
  · rw [if_neg h1]
    by_cases h2 : i - 4 < 7
    · rw [if_pos h2, addrChan, BitVec.getLsbD_extractLsb', show 4 + (i - 4) = i by omega]
      simp [h2]
    · have h3 : i = 11 := by omega
      subst h3
      rw [h]
      rfl

/-- Decoding a transaction word is decoding its three fields. -/
theorem decode_busWord (rw : Bool) (a : Addr) (d : Word) : decode (.bus (busWord rw a d)) = decodeAccess rw a d := by
  simp [decode]

/-- The channel region, by channel and offset (30_encoding.md R83). -/
theorem decodeAccess_chanAddr (rw : Bool) (c : Chan) (o : BitVec 4) (d : Word) :
    decodeAccess rw (chanAddr c o) d = decodeChannel rw c o.toNat d := by
  rw [decodeAccess, chanAddr_region, if_pos rfl, addrChan_chanAddr, addrOff_chanAddr]

/-- The global region, by the whole address (30_encoding.md R82). -/
theorem decodeAccess_global (rw : Bool) (a : Addr) (d : Word) (h : a.getLsbD 11 = false) :
    decodeAccess rw a d = decodeGlobal rw a.toNat d := by
  rw [decodeAccess, h, if_neg Bool.false_ne_true]

/-- The AND of two transaction words, field by field. -/
theorem busWord_and (r q : Bool) (a b : Addr) (d e : Word) :
    busWord r a d &&& busWord q b e = busWord (r && q) (a &&& b) (d &&& e) := by
  apply BitVec.eq_of_getLsbD_eq
  intro i hi
  rw [BitVec.getLsbD_and, busWord_bit, busWord_bit, busWord_bit]
  split
  · rw [BitVec.getLsbD_and]
  · split
    · rw [BitVec.getLsbD_and]
    · have h3 : i = 44 := by omega
      subst h3
      cases r <;> cases q <;> rfl

/-- The AND of two channel addresses, field by field. -/
theorem chanAddr_and (c e : Chan) (o p : BitVec 4) : chanAddr c o &&& chanAddr e p = chanAddr (c &&& e) (o &&& p) := by
  apply BitVec.eq_of_getLsbD_eq
  intro i hi
  rw [BitVec.getLsbD_and, chanAddr_bit, chanAddr_bit, chanAddr_bit]
  split
  · rw [BitVec.getLsbD_and]
  · split
    · rw [BitVec.getLsbD_and]
    · have h3 : i = 11 := by omega
      subst h3
      rfl

end Sys2Proof
end

