-- ==== Sys2Proof/Laws/Ops.lean ====
section
/-! SUPPORT. For each shared operation, one lemma that says everything it can do; the later proofs cite these and unfold nothing. -/

namespace Sys2Proof.Machine

/-- `OCC` lies in `0 .. CAP-1` in every state (10_state.md R35). -/
theorem occ_lt_cap (s : State) : occ s < s.cap := by
  have hc : (0 : Int) < (s.cap : Int) := by exact_mod_cast s.cap_pos
  have h1 := Int.emod_nonneg ((s.wr : Int) - (s.rd : Int)) (ne_of_gt hc)
  have h2 := Int.emod_lt_of_pos ((s.wr : Int) - (s.rd : Int)) hc
  unfold occ
  omega

/-- `OCC` without the integers, for indices inside the buffer. -/
theorem occ_eq (s : State) (hw : s.wr < s.cap) (hr : s.rd < s.cap) :
    occ s = if s.rd ≤ s.wr then s.wr - s.rd else s.wr + s.cap - s.rd := by
  unfold occ
  split
  · rename_i h
    rw [Int.emod_eq_of_lt (by omega) (by omega)]
    omega
  · rename_i h
    have h1 : ((s.wr : Int) - (s.rd : Int)) % (s.cap : Int) = (s.wr : Int) - (s.rd : Int) + (s.cap : Int) := by
      rw [← Int.add_emod_right, Int.emod_eq_of_lt (by omega) (by omega)]
    rw [h1]
    omega

/-- `FREE + OCC = CAP - 1` (44_ring_buffer.md R190). -/
theorem free_add_occ (s : State) : free s + occ s = s.cap - 1 := by
  have := occ_lt_cap s
  unfold free
  omega

/-- The buffer is full iff `FREE = 0`, iff `OCC = CAP - 1` (44_ring_buffer.md R190). -/
theorem free_eq_zero_iff (s : State) : free s = 0 ↔ occ s = s.cap - 1 := by
  have := free_add_occ s
  omega

/-- `OCC` depends on the indices and `K` alone. -/
theorem occ_congr {s t : State} (hw : t.wr = s.wr) (hr : t.rd = s.rd) (hk : t.k = s.k) : occ t = occ s := by
  unfold occ State.cap
  rw [hw, hr, hk]

/-- `FREE` depends on the indices and `K` alone. -/
theorem free_congr {s t : State} (hw : t.wr = s.wr) (hr : t.rd = s.rd) (hk : t.k = s.k) : free t = free s := by
  unfold free
  rw [occ_congr hw hr hk]
  unfold State.cap
  rw [hk]

/-- `Push` does one of two things (44_ring_buffer.md R191). -/
theorem push_cases (f : Word) (s : State) :
    (free s = 0 ∧ push f s = setOvr s) ∨
      (free s ≠ 0 ∧ push f s = { s with mem := s.mem.write s.wr f, wr := (s.wr + 1) % s.cap }) := by
  unfold push
  by_cases h : free s = 0
  · exact Or.inl ⟨h, if_pos h⟩
  · exact Or.inr ⟨h, if_neg h⟩

/-- The delivery of a frame does one of two things (44_ring_buffer.md R195). -/
theorem deliver_cases (s : State) :
    (occ s = 0 ∧ deliver s = { s with udr := true, frame := s.last }) ∨
      (occ s ≠ 0 ∧ deliver s =
        { s with frame := s.mem.read s.rd, last := s.mem.read s.rd, rd := (s.rd + 1) % s.cap }) := by
  unfold deliver
  by_cases h : occ s = 0
  · exact Or.inl ⟨h, if_pos h⟩
  · exact Or.inr ⟨h, if_neg h⟩

/-- A frame step does one of three things (43_mixer.md R176). -/
theorem frameStep_cases (s : State) :
    (free s = 0 ∧ frameStep s = setOvr s) ∨
      (free s ≠ 0 ∧ s.pause = true ∧ frameStep s = push 0#32 s) ∨
      (free s ≠ 0 ∧ s.pause = false ∧ frameStep s = renderFrame s) := by
  unfold frameStep
  by_cases h : free s = 0
  · exact Or.inl ⟨h, if_pos h⟩
  · cases hp : s.pause
    · exact Or.inr (Or.inr ⟨h, rfl, by rw [if_neg h, if_neg Bool.false_ne_true]⟩)
    · exact Or.inr (Or.inl ⟨h, rfl, by rw [if_neg h, if_pos rfl]⟩)

/-- A tick where due touches the banks and the tick counter alone. -/
theorem tickIfDue_eq (s : State) :
    tickIfDue s = { s with banks := (tickIfDue s).banks, tickcnt := (tickIfDue s).tickcnt } := by
  unfold tickIfDue
  split <;> rfl

/-- Banks after the tick that is due. -/
theorem tickIfDue_banks (s : State) :
    (tickIfDue s).banks = if s.div = 0#16 then s.banks.map Bank.tick else s.banks := by
  unfold tickIfDue
  split <;> rfl

/-- The tick counter after the tick that is due. -/
theorem tickIfDue_tickcnt (s : State) :
    (tickIfDue s).tickcnt = if s.div = 0#16 then s.tickcnt + 1#16 else s.tickcnt := by
  unfold tickIfDue
  split <;> rfl

/-- A rendered frame, field by field, when there is room: the third branch of `FRAME` (43_mixer.md R176). -/
theorem renderFrame_eq (s : State) (h : free s ≠ 0) :
    renderFrame s =
      { s with
        banks := (tickIfDue s).banks.map Bank.advance
        tickcnt := (tickIfDue s).tickcnt
        mem := s.mem.write s.wr (packFrame (mixValue ((tickIfDue s).banks.map Bank.advance)))
        wr := (s.wr + 1) % s.cap
        div := nextDiv s } := by
  have ht := tickIfDue_eq s
  set b := (tickIfDue s).banks
  set n := (tickIfDue s).tickcnt
  unfold renderFrame
  rw [ht]
  have hf : free { s with banks := b.map Bank.advance, tickcnt := n } ≠ 0 := fun e =>
    h ((free_congr (t := { s with banks := b.map Bank.advance, tickcnt := n }) (s := s) rfl rfl rfl).symm.trans e)
  simp only [push, if_neg hf]
  rfl

/-- A frame step leaves `RCNT` alone (43_mixer.md R176). -/
theorem frameStep_rcnt (s : State) : (frameStep s).rcnt = s.rcnt := by
  rcases frameStep_cases s with ⟨_, e⟩ | ⟨_, _, e⟩ | ⟨h, _, e⟩
  · rw [e]; rfl
  · rw [e]
    rcases push_cases 0#32 s with ⟨_, e'⟩ | ⟨_, e'⟩
    · rw [e']; rfl
    · rw [e']
  · rw [e, renderFrame_eq s h]

/-- The render engine's step is a frame step and `RCNT` counted down by 1 (43_mixer.md R177). -/
theorem engineStep_eq (s : State) : engineStep s = { frameStep s with rcnt := s.rcnt - 1#16 } := by
  show { frameStep s with rcnt := (frameStep s).rcnt - 1#16 } = _
  rw [frameStep_rcnt]

/-- `DIV` after a rendered frame never exceeds 65534 (70_reset_and_hazards.md R296). -/
theorem nextDiv_le (s : State) : (nextDiv s).toNat ≤ 65534 := by
  have h1 := s.div.isLt
  have h2 := s.spt.isLt
  unfold nextDiv
  split
  · exact Nat.zero_le _
  · rw [BitVec.toNat_add]
    simp only [BitVec.toNat_ofNat]
    omega

/-- A write to an existing bank replaces that bank (30_encoding.md R83). -/
theorem updateBank_of_some {s : State} {c : Chan} {b : Bank} (h : s.banks[c.toNat]? = some b) (f : Bank → Bank) :
    updateBank c f s = { s with banks := s.banks.set c.toNat (f b) } := by
  unfold updateBank
  rw [List.modify_eq_set_getElem?, h]
  rfl

/-- A write to a bank that does not exist changes nothing (30_encoding.md R91). -/
theorem updateBank_of_none {s : State} {c : Chan} (h : s.nch ≤ c.toNat) (f : Bank → Bank) : updateBank c f s = s := by
  unfold updateBank
  rw [List.modify_eq_self h]

/-- A read of an existing bank. -/
theorem bankWord_of_some {s : State} {c : Chan} {b : Bank} (h : s.banks[c.toNat]? = some b) (f : Bank → Word) :
    bankWord c f s = f b := by
  unfold bankWord bank?
  rw [h]

/-- A read of a bank that does not exist delivers 0 (30_encoding.md R91). -/
theorem bankWord_of_none {s : State} {c : Chan} (h : s.nch ≤ c.toNat) (f : Bank → Word) : bankWord c f s = 0#32 := by
  unfold bankWord bank?
  rw [List.getElem?_eq_none h]

/-- The host's turn does one of four things (20_memory.md R70, R72; 30_encoding.md R92). -/
theorem hostTurn_cases (s : State) :
    (s.rcnt ≠ 0#16 ∧ hostTurn s = .next s) ∨
      (s.rcnt = 0#16 ∧ s.bus = [] ∧ hostTurn s = .next s) ∨
      (∃ t rest i, s.rcnt = 0#16 ∧ s.bus = t :: rest ∧ decode (.bus t) = .ok i ∧
        hostTurn s = exec i { s with bus := rest }) ∨
      (∃ t rest e, s.rcnt = 0#16 ∧ s.bus = t :: rest ∧ decode (.bus t) = .error e ∧
        hostTurn s = .next (unmatched e { s with bus := rest })) := by
  unfold hostTurn
  by_cases h : s.rcnt = 0#16
  · rw [if_pos h]
    cases hb : s.bus with
    | nil => exact Or.inr (Or.inl ⟨h, rfl, rfl⟩)
    | cons t rest =>
      unfold perform
      cases hd : decode (.bus t) with
      | ok i => exact Or.inr (Or.inr (Or.inl ⟨t, rest, i, h, rfl, hd, by simp only [hd]⟩))
      | error e => exact Or.inr (Or.inr (Or.inr ⟨t, rest, e, h, rfl, hd, by simp only [hd]⟩))
  · exact Or.inl ⟨h, if_neg h⟩

/-- The render engine's turn does one of two things (43_mixer.md R177). -/
theorem engineTurn_cases (s : State) :
    (s.rcnt = 0#16 ∧ engineTurn s = .next s) ∨ (s.rcnt ≠ 0#16 ∧ engineTurn s = .next (engineStep s)) := by
  unfold engineTurn
  by_cases h : s.rcnt = 0#16
  · exact Or.inl ⟨h, if_pos h⟩
  · exact Or.inr ⟨h, if_neg h⟩

/-- The consumer's turn does one of two things (20_memory.md R70). -/
theorem consumerTurn_cases (s : State) :
    (s.pops = 0 ∧ consumerTurn s = .next s) ∨
      (∃ n, s.pops = n + 1 ∧ consumerTurn s = .next (deliver { s with pops := n })) := by
  unfold consumerTurn
  cases h : s.pops with
  | zero => exact Or.inl ⟨rfl, rfl⟩
  | succ n => exact Or.inr ⟨n, rfl, rfl⟩

/-- What an unmatched word does: at most the answer 0 (30_encoding.md R88 to R90). -/
theorem unmatched_eq (e : Reject) (s : State) : unmatched e s = s ∨ unmatched e s = { s with rdata := 0#32 } := by
  cases e
  · exact Or.inr rfl
  · exact Or.inl rfl
  · exact Or.inl rfl
  · exact Or.inr rfl

end Sys2Proof.Machine
end

