-- ==== Sys2Proof/Laws/PerInstr.lean ====
section
/-! SUPPORT. Per operation: the word the encoder writes matches the operation's own row of spec/opcode_table.json
(spec/30_encoding.md R81, R96). -/

namespace Sys2Proof

/-- A global register's word, masked as a row of the global region masks it: its data bits are cleared. -/
theorem globalMask_and (rw : Bool) (a : Addr) (d : Word) : busWord rw a d &&& globalMask = busWord rw a 0#32 := by
  have h : globalMask = busWord true 0xFFF#12 0#32 := by decide
  have ha : a &&& 0xFFF#12 = a := BitVec.and_allOnes
  rw [h, busWord_and, ha, Bool.and_true, BitVec.and_zero]

/-- A channel register's word, masked as a row of the channel region masks it: its channel and its data bits are cleared. -/
theorem channelMask_and (rw : Bool) (c : Chan) (o : BitVec 4) (d : Word) :
    busWord rw (chanAddr c o) d &&& channelMask = busWord rw (chanAddr 0#7 o) 0#32 := by
  have h : channelMask = busWord true (chanAddr 0#7 0xF#4) 0#32 := by decide
  have ho : o &&& 0xF#4 = o := BitVec.and_allOnes
  rw [h, busWord_and, chanAddr_and, ho, BitVec.and_zero, BitVec.and_zero, Bool.and_true]

namespace Laws.RowMatch

/-- The request `r` matches a row named `m`: the pop request is the row without a mask. -/
def Matches (r : Request) (m : String) : Prop :=
  match r with
  | .bus t => ∃ row ∈ opcodeTable, row.mnemonic = m ∧ t &&& row.mask = row.pattern
  | .pop => m = "POP"

/-- What is said of each operation. -/
def Statement (i : Instr) : Prop := Matches (encode i) i.mnemonic

theorem of_global (rw : Bool) (a : Addr) (d : Word) (m : String)
    (h : ∃ row ∈ opcodeTable, row.mnemonic = m ∧ row.mask = globalMask ∧ busWord rw a 0#32 = row.pattern) :
    Matches (.bus (busWord rw a d)) m := by
  obtain ⟨row, hr, hm, hk, hp⟩ := h
  exact ⟨row, hr, hm, by rw [hk, globalMask_and, hp]⟩

theorem of_channel (rw : Bool) (c : Chan) (o : BitVec 4) (d : Word) (m : String)
    (h : ∃ row ∈ opcodeTable, row.mnemonic = m ∧ row.mask = channelMask ∧ busWord rw (chanAddr 0#7 o) 0#32 = row.pattern) :
    Matches (.bus (busWord rw (chanAddr c o) d)) m := by
  obtain ⟨row, hr, hm, hk, hp⟩ := h
  exact ⟨row, hr, hm, by rw [hk, channelMask_and, hp]⟩

theorem wrCtrl (data : Word) : Statement (.wrCtrl data) := of_global _ _ _ "WR.CTRL" (by decide)
theorem rdCtrl : Statement .rdCtrl := of_global _ _ _ "RD.CTRL" (by decide)
theorem wrStatus (data : Word) : Statement (.wrStatus data) := of_global _ _ _ "WR.STATUS" (by decide)
theorem rdStatus : Statement .rdStatus := of_global _ _ _ "RD.STATUS" (by decide)
theorem wrSpt (data : Word) : Statement (.wrSpt data) := of_global _ _ _ "WR.SPT" (by decide)
theorem rdSpt : Statement .rdSpt := of_global _ _ _ "RD.SPT" (by decide)
theorem wrRender (data : Word) : Statement (.wrRender data) := of_global _ _ _ "WR.RENDER" (by decide)
theorem rdDiv : Statement .rdDiv := of_global _ _ _ "RD.DIV" (by decide)
theorem rdTickcnt : Statement .rdTickcnt := of_global _ _ _ "RD.TICKCNT" (by decide)
theorem rdRbCap : Statement .rdRbCap := of_global _ _ _ "RD.RB_CAP" (by decide)
theorem rdRbWr : Statement .rdRbWr := of_global _ _ _ "RD.RB_WR" (by decide)
theorem rdRbRd : Statement .rdRbRd := of_global _ _ _ "RD.RB_RD" (by decide)
theorem rdRbOcc : Statement .rdRbOcc := of_global _ _ _ "RD.RB_OCC" (by decide)
theorem rdRbFree : Statement .rdRbFree := of_global _ _ _ "RD.RB_FREE" (by decide)
theorem wrRbPush (data : Word) : Statement (.wrRbPush data) := of_global _ _ _ "WR.RB_PUSH" (by decide)
theorem wrChEn (ch : Chan) (data : Word) : Statement (.wrChEn ch data) := of_channel _ _ _ _ "WR.CH_EN" (by decide)
theorem rdChEn (ch : Chan) : Statement (.rdChEn ch) := of_channel _ _ _ _ "RD.CH_EN" (by decide)
theorem wrChWave (ch : Chan) (data : Word) : Statement (.wrChWave ch data) := of_channel _ _ _ _ "WR.CH_WAVE" (by decide)
theorem rdChWave (ch : Chan) : Statement (.rdChWave ch) := of_channel _ _ _ _ "RD.CH_WAVE" (by decide)
theorem wrChVol (ch : Chan) (data : Word) : Statement (.wrChVol ch data) := of_channel _ _ _ _ "WR.CH_VOL" (by decide)
theorem rdChVol (ch : Chan) : Statement (.rdChVol ch) := of_channel _ _ _ _ "RD.CH_VOL" (by decide)
theorem wrChAtk (ch : Chan) (data : Word) : Statement (.wrChAtk ch data) := of_channel _ _ _ _ "WR.CH_ATK" (by decide)
theorem rdChAtk (ch : Chan) : Statement (.rdChAtk ch) := of_channel _ _ _ _ "RD.CH_ATK" (by decide)
theorem wrChRls (ch : Chan) (data : Word) : Statement (.wrChRls ch data) := of_channel _ _ _ _ "WR.CH_RLS" (by decide)
theorem rdChRls (ch : Chan) : Statement (.rdChRls ch) := of_channel _ _ _ _ "RD.CH_RLS" (by decide)
theorem wrChInc (ch : Chan) (data : Word) : Statement (.wrChInc ch data) := of_channel _ _ _ _ "WR.CH_INC" (by decide)
theorem rdChInc (ch : Chan) : Statement (.rdChInc ch) := of_channel _ _ _ _ "RD.CH_INC" (by decide)
theorem wrChNote (ch : Chan) (data : Word) : Statement (.wrChNote ch data) := of_channel _ _ _ _ "WR.CH_NOTE" (by decide)
theorem wrChKeyoff (ch : Chan) (data : Word) : Statement (.wrChKeyoff ch data) := of_channel _ _ _ _ "WR.CH_KEYOFF" (by decide)
theorem wrChReset (ch : Chan) (data : Word) : Statement (.wrChReset ch data) := of_channel _ _ _ _ "WR.CH_RESET" (by decide)
theorem rdChAcc (ch : Chan) : Statement (.rdChAcc ch) := of_channel _ _ _ _ "RD.CH_ACC" (by decide)
theorem rdChLevel (ch : Chan) : Statement (.rdChLevel ch) := of_channel _ _ _ _ "RD.CH_LEVEL" (by decide)
theorem rdChStat (ch : Chan) : Statement (.rdChStat ch) := of_channel _ _ _ _ "RD.CH_STAT" (by decide)
theorem pop : Statement .pop := rfl

end Laws.RowMatch

end Sys2Proof
end

