-- ==== Sys2Proof/Laws/Run.lean ====
section
/-! SUPPORT. Laws of the channel addresses as numbers, of the shared steps' frames, and of runs of several steps. -/

namespace Sys2Proof.Machine

/-- The word address `0x800 + 16*c + off` is the channel address of its fields (30_encoding.md R83). -/
theorem chanAddr_eq_ofNat (c : Chan) (o : Nat) (h : o < 16) :
    BitVec.ofNat 12 (0x800 + 16 * c.toNat + o) = chanAddr c (BitVec.ofNat 4 o) := by
  have h1 := BitVec.toNat_append (1#1 ++ c) (BitVec.ofNat 4 o)
  have h2 := BitVec.toNat_append (1#1) c
  have ho : (BitVec.ofNat 4 o).toNat = o := by
    rw [BitVec.toNat_ofNat]
    omega
  have hc := c.isLt
  rw [← Nat.shiftLeft_add_eq_or_of_lt (by omega)] at h2
  rw [← Nat.shiftLeft_add_eq_or_of_lt (by omega), h2, ho] at h1
  apply BitVec.eq_of_toNat_eq
  refine Eq.trans ?_ h1.symm
  simp [Nat.shiftLeft_eq]
  omega

/-- An access to register `o` of channel `c` decodes in the channel region (30_encoding.md R83). -/
theorem decode_atChannel (rw : Bool) (c : Chan) (o : Nat) (h : o < 16) (d : Word) :
    decode (atChannel rw c o d) = decodeChannel rw c o d := by
  have ho : (BitVec.ofNat 4 o).toNat = o := by
    rw [BitVec.toNat_ofNat]
    omega
  rw [atChannel, chanAddr_eq_ofNat c o h, decode_busWord, decodeAccess_chanAddr, ho]

/-- What `POP` leaves: every field but `RD`, `LAST`, `UDR` and the consumer port's answer (44_ring_buffer.md R195, R196). -/
theorem deliver_eq (s : State) :
    deliver s =
      { s with rd := (deliver s).rd, last := (deliver s).last, udr := (deliver s).udr, frame := (deliver s).frame } := by
  rcases deliver_cases s with ⟨_, e⟩ | ⟨_, e⟩ <;> rw [e]

/-- What the render engine's step leaves (43_mixer.md R176, R177). -/
theorem engineStep_frame (s : State) :
    engineStep s =
      { s with
        banks := (engineStep s).banks
        tickcnt := (engineStep s).tickcnt
        mem := (engineStep s).mem
        wr := (engineStep s).wr
        div := (engineStep s).div
        ovr := (engineStep s).ovr
        rcnt := (engineStep s).rcnt } := by
  rw [engineStep_eq]
  rcases frameStep_cases s with ⟨_, e⟩ | ⟨_, _, e⟩ | ⟨h, _, e⟩
  · rw [e]; rfl
  · rw [e]
    rcases push_cases 0#32 s with ⟨_, e'⟩ | ⟨_, e'⟩ <;> rw [e'] <;> rfl
  · rw [e, renderFrame_eq _ h]

/-- All that a step can do, by the turn it takes (20_memory.md R70 to R72; 43_mixer.md R177; 70_reset_and_hazards.md R280): the turn
passes; the host's oldest transaction runs or has the outcome of a word that matches no row; the render engine renders; the consumer
pops; SB is reset. -/
theorem step_cases {s t : State} (h : step s = .next t) :
    t = dropTurn s ∨
      (∃ w rest i, nextTurn s = some .host ∧ s.rcnt = 0#16 ∧ s.bus = w :: rest ∧ decode (.bus w) = .ok i ∧
        exec i { dropTurn s with bus := rest } = .next t) ∨
      (∃ w rest e, nextTurn s = some .host ∧ s.rcnt = 0#16 ∧ s.bus = w :: rest ∧ decode (.bus w) = .error e ∧
        t = unmatched e { dropTurn s with bus := rest }) ∨
      (nextTurn s = some .engine ∧ s.rcnt ≠ 0#16 ∧ t = engineStep (dropTurn s)) ∨
      (∃ n, nextTurn s = some .consumer ∧ s.pops = n + 1 ∧ t = deliver { dropTurn s with pops := n }) ∨
      (nextTurn s = some .reset ∧ t = { State.resetOf s.config with bus := s.bus, pops := s.pops, sched := s.sched.tail }) := by
  unfold step at h
  cases hn : nextTurn s with
  | none =>
    rw [hn] at h
    injection h with h
    exact .inl h.symm
  | some u =>
    rw [hn] at h
    cases u with
    | host =>
      rcases hostTurn_cases (dropTurn s) with ⟨_, e⟩ | ⟨_, _, e⟩ | ⟨w, rest, i, hr, hb, hd, e⟩ | ⟨w, rest, x, hr, hb, hd, e⟩
      · exact .inl (Host.Outcome.next.inj (e.symm.trans h)).symm
      · exact .inl (Host.Outcome.next.inj (e.symm.trans h)).symm
      · exact .inr (.inl ⟨w, rest, i, rfl, hr, hb, hd, e.symm.trans h⟩)
      · exact .inr (.inr (.inl ⟨w, rest, x, rfl, hr, hb, hd, (Host.Outcome.next.inj (e.symm.trans h)).symm⟩))
    | engine =>
      rcases engineTurn_cases (dropTurn s) with ⟨_, e⟩ | ⟨hr, e⟩
      · exact .inl (Host.Outcome.next.inj (e.symm.trans h)).symm
      · exact .inr (.inr (.inr (.inl ⟨rfl, hr, (Host.Outcome.next.inj (e.symm.trans h)).symm⟩)))
    | consumer =>
      rcases consumerTurn_cases (dropTurn s) with ⟨_, e⟩ | ⟨n, hp, e⟩
      · exact .inl (Host.Outcome.next.inj (e.symm.trans h)).symm
      · exact .inr (.inr (.inr (.inr (.inl ⟨n, rfl, hp, (Host.Outcome.next.inj (e.symm.trans h)).symm⟩))))
    | reset => exact .inr (.inr (.inr (.inr (.inr ⟨rfl, (Host.Outcome.next.inj h).symm⟩))))

/-- A count over a run of one step more. -/
theorem countRun_succ (f : State → Nat) (n : Nat) (s t : State) (h : step s = .next t) :
    countRun f (n + 1) s = f s + countRun f n t := by
  simp only [countRun, h]

/-- A run of one step more. -/
theorem runSteps_succ (n : Nat) (s t : State) (h : step s = .next t) : runSteps (n + 1) s = runSteps n t := by
  have h' : core.step s = .next t := h
  simp only [runSteps, Host.Core.run, h']
  rfl

end Sys2Proof.Machine
end

