-- ==== Sys2Proof/Tests/Slice0.lean ====
section
/-! SUPPORT. Tests of one step each, their expected results from the spec's own vectors (spec/95_test_vectors.md, the row named with
each), the smoke tests of well-formedness, a decoded word for every constructor, and for every statement with hypotheses a state
that meets them. -/

namespace Sys2Proof.Tests

open Sys2Proof Sys2Proof.Machine

/-- What is seen of an outcome. -/
def see {α : Type} (f : State → α) (o : Host.Outcome State Fault Refusal) : Option α :=
  match o with
  | .next t => some (f t)
  | .fault _ => none
  | .refused _ => none

/-- The step that takes the transaction word `w` at the producer port, seen through `f`. -/
def issue {α : Type} (s : State) (w : Nat) (f : State → α) : Option α := see f (step (s.withFetchWord 48 w))

/-- The reset state of `NCH = 2`, `K = 3`. -/
def base : State := State.resetOf ⟨2, 3, 1#16⟩

/-- The same with a drained buffer. -/
def room : State := { base with rd := 7 }

/-- `base` with the given bank of channel 0. -/
def with0 (b : Bank) : State := { base with banks := [b, Bank.reset] }

/-- `base` with the given bank of channel 1. -/
def with1 (b : Bank) : State := { base with banks := [Bank.reset, b] }

/-- A bank with every field apart from its reset value. -/
def busy : Bank := ⟨true, 1#2, 9#8, 8#8, 7#8, 0x0123#16, 0x4321#16, 77#8, true⟩

/-- The bank of vector M7. -/
def m7Bank : Bank := ⟨true, 1#2, 0#8, 0#8, 0#8, 0x4000#16, 0#16, 255#8, false⟩

/-- The start of vector M7 with one frame owed, `CAP = 8`, read index `r`. -/
def m7 (r : Nat) (p : Bool) : State :=
  { State.resetOf ⟨1, 3, 1#16⟩ with
    rd := r, pause := p, spt := 2#16, div := 1#16, tickcnt := 5#16, rcnt := 1#16, banks := [m7Bank] }

/-! ### Well-formedness -/

theorem test_wf_refuses_absent_channel_write : (Instr.wrChEn 2#7 1#32).wf 2 = false := by decide
theorem test_wf_refuses_absent_channel_read : (Instr.rdChStat 127#7).wf 127 = false := by decide
theorem test_wf_takes_last_channel : (Instr.wrChNote 1#7 1#32).wf 2 = true := by decide
theorem test_wf_takes_global : (Instr.rdRbFree).wf 1 = true := by decide
theorem test_config_refuses_no_channel : (Config.mk 0 3 1#16).wf = false := by decide
theorem test_config_refuses_129_channels : (Config.mk 129 3 1#16).wf = false := by decide
theorem test_config_refuses_k_0 : (Config.mk 2 0 1#16).wf = false := by decide
theorem test_config_refuses_k_17 : (Config.mk 2 17 1#16).wf = false := by decide
theorem test_config_refuses_spt_reset_0 : (Config.mk 2 3 0#16).wf = false := by decide

/-! ### A decoded word for every constructor: `T[44] = rw`, `T[43:32] = addr`, `T[31:0] = data` (30_encoding.md R81, R84, R85) -/

theorem test_decode_wrCtrl : decodeTableWord 48 0x1000FFFFFFFE = some (.wrCtrl 0xFFFFFFFE#32) := by decide
theorem test_decode_rdCtrl : decodeTableWord 48 0x000000000000 = some .rdCtrl := by decide
theorem test_decode_wrStatus : decodeTableWord 48 0x100100000003 = some (.wrStatus 3#32) := by decide
theorem test_decode_rdStatus : decodeTableWord 48 0x000100000000 = some .rdStatus := by decide
theorem test_decode_wrSpt : decodeTableWord 48 0x100200000004 = some (.wrSpt 4#32) := by decide
theorem test_decode_rdSpt : decodeTableWord 48 0x000200000000 = some .rdSpt := by decide
theorem test_decode_wrRender : decodeTableWord 48 0x100300000007 = some (.wrRender 7#32) := by decide
theorem test_decode_rdDiv : decodeTableWord 48 0x000400000000 = some .rdDiv := by decide
theorem test_decode_rdTickcnt : decodeTableWord 48 0x000500000000 = some .rdTickcnt := by decide
theorem test_decode_rdRbCap : decodeTableWord 48 0x001000000000 = some .rdRbCap := by decide
theorem test_decode_rdRbWr : decodeTableWord 48 0x001100000000 = some .rdRbWr := by decide
theorem test_decode_rdRbRd : decodeTableWord 48 0x001200000000 = some .rdRbRd := by decide
theorem test_decode_rdRbOcc : decodeTableWord 48 0x001300000000 = some .rdRbOcc := by decide
theorem test_decode_rdRbFree : decodeTableWord 48 0x001400000000 = some .rdRbFree := by decide
theorem test_decode_wrRbPush : decodeTableWord 48 0x1015FFFEFFFF = some (.wrRbPush 0xFFFEFFFF#32) := by decide
theorem test_decode_wrChEn : decodeTableWord 48 0x1810FFFFFFFE = some (.wrChEn 1#7 0xFFFFFFFE#32) := by decide
theorem test_decode_rdChEn : decodeTableWord 48 0x082000000000 = some (.rdChEn 2#7) := by decide
theorem test_decode_wrChWave : decodeTableWord 48 0x181100000003 = some (.wrChWave 1#7 3#32) := by decide
theorem test_decode_rdChWave : decodeTableWord 48 0x0FF100000000 = some (.rdChWave 127#7) := by decide
theorem test_decode_wrChVol : decodeTableWord 48 0x1832000001FF = some (.wrChVol 3#7 0x1FF#32) := by decide
theorem test_decode_rdChVol : decodeTableWord 48 0x083200000000 = some (.rdChVol 3#7) := by decide
theorem test_decode_wrChAtk : decodeTableWord 48 0x181300000100 = some (.wrChAtk 1#7 0x100#32) := by decide
theorem test_decode_rdChAtk : decodeTableWord 48 0x0C0300000000 = some (.rdChAtk 64#7) := by decide
theorem test_decode_wrChRls : decodeTableWord 48 0x180400000080 = some (.wrChRls 0#7 0x80#32) := by decide
theorem test_decode_rdChRls : decodeTableWord 48 0x081400000000 = some (.rdChRls 1#7) := by decide
theorem test_decode_wrChInc : decodeTableWord 48 0x181500012345 = some (.wrChInc 1#7 0x12345#32) := by decide
theorem test_decode_rdChInc : decodeTableWord 48 0x0BF500000000 = some (.rdChInc 63#7) := by decide
theorem test_decode_wrChNote : decodeTableWord 48 0x1FF600001000 = some (.wrChNote 127#7 0x1000#32) := by decide
theorem test_decode_wrChKeyoff : decodeTableWord 48 0x18070000ABCD = some (.wrChKeyoff 0#7 0xABCD#32) := by decide
theorem test_decode_wrChReset : decodeTableWord 48 0x180800000055 = some (.wrChReset 0#7 0x55#32) := by decide
theorem test_decode_rdChAcc : decodeTableWord 48 0x081900000000 = some (.rdChAcc 1#7) := by decide
theorem test_decode_rdChLevel : decodeTableWord 48 0x081A00000000 = some (.rdChLevel 1#7) := by decide
theorem test_decode_rdChStat : decodeTableWord 48 0x0FFB00000000 = some (.rdChStat 127#7) := by decide
theorem test_decode_pop : decodeTableWord 8 1 = some .pop := by decide
theorem test_decode_rejects_by_name :
    decode (.bus 0x000600000000#45) = .error .reservedRead ∧ decode (.bus 0x181F00000001#45) = .error .reservedWrite ∧
    decode (.bus 0x101000000009#45) = .error .readOnlyWrite ∧ decode (.bus 0x080600000000#45) = .error .writeOnlyRead := by decide

/-! ### One step of each operation -/

/-- GC2 -/
theorem test_wrCtrl : issue { base with pause := true } 0x1000FFFFFFFE State.pause = some false := by decide
/-- R101 -/
theorem test_rdCtrl : issue { base with pause := true } 0x000000000000 State.rdata = some 1#32 := by decide
/-- GC4 -/
theorem test_wrStatus : issue { base with ovr := true, udr := true, cfgerr := true } 0x100100000005
    (fun t => (t.ovr, t.udr, t.cfgerr)) = some (false, true, false) := by decide
/-- GC5 -/
theorem test_wrStatus_cannot_set : issue base 0x1001FFFFFFFF (fun t => (t.ovr, t.udr, t.cfgerr)) = some (false, false, false) := by
  decide
/-- X1 line 17: `OVR` and `UDR` -/
theorem test_rdStatus : issue { base with ovr := true, udr := true } 0x000100000000 State.rdata = some 3#32 := by decide
/-- X5 line 2 -/
theorem test_rdStatus_cfgerr : issue { base with cfgerr := true } 0x000100000000 State.rdata = some 4#32 := by decide
/-- GC7 -/
theorem test_wrSpt_zero : issue { base with spt := 4#16 } 0x100200010000 (fun t => (t.spt, t.cfgerr)) = some (4#16, true) := by decide
/-- GC8 -/
theorem test_wrSpt : issue { base with spt := 4#16 } 0x10020001FFFF (fun t => (t.spt, t.cfgerr)) = some (0xFFFF#16, false) := by
  decide
/-- R105 -/
theorem test_rdSpt : issue { base with spt := 0xFFFF#16 } 0x000200000000 State.rdata = some 0xFFFF#32 := by decide
/-- M8 -/
theorem test_wrRender : issue base 0x100300030002 State.rcnt = some 2#16 := by decide
/-- X2 line 11 -/
theorem test_rdDiv : issue { base with div := 3#16 } 0x000400000000 State.rdata = some 3#32 := by decide
/-- X2 line 12 -/
theorem test_rdTickcnt : issue { base with tickcnt := 2#16 } 0x000500000000 State.rdata = some 2#32 := by decide
/-- RB6 -/
theorem test_rdRbCap : issue { base with k := 16 } 0x001000000000 State.rdata = some 0x10000#32 := by decide
/-- X1 line 10 -/
theorem test_rdRbWr : issue { base with wr := 1, rd := 2 } 0x001100000000 State.rdata = some 1#32 := by decide
/-- X1 line 11 -/
theorem test_rdRbRd : issue { base with wr := 1, rd := 2 } 0x001200000000 State.rdata = some 2#32 := by decide
/-- RB5, `CAP = 4` -/
theorem test_rdRbOcc : issue { base with k := 2, wr := 1, rd := 3 } 0x001300000000 State.rdata = some 2#32 := by decide
/-- RB5, `CAP = 8` -/
theorem test_rdRbOcc_full : issue { base with wr := 0, rd := 1 } 0x001300000000 State.rdata = some 7#32 := by decide
/-- RB5, `CAP = 4` -/
theorem test_rdRbFree : issue { base with k := 2, wr := 1, rd := 3 } 0x001400000000 State.rdata = some 1#32 := by decide
/-- RB5, `CAP = 8` -/
theorem test_rdRbFree_full : issue { base with wr := 0, rd := 1 } 0x001400000000 State.rdata = some 0#32 := by decide
/-- RB3, `CAP = 4` -/
theorem test_wrRbPush : issue { base with k := 2, wr := 3, rd := 1 } 0x1015AAAA5555
    (fun t => (t.mem, t.wr, t.ovr)) = some ([(3, 0xAAAA5555#32)], 0, false) := by decide
/-- RB3, rejected -/
theorem test_wrRbPush_full : issue { base with k := 2, wr := 0, rd := 1 } 0x101511112222
    (fun t => (t.mem, t.wr, t.ovr)) = some ([], 0, true) := by decide
/-- DE6 -/
theorem test_wrChEn : issue (with1 busy) 0x1810FFFFFFFE State.banks = some [Bank.reset, { busy with en := false }] := by decide
/-- R121 -/
theorem test_rdChEn : issue (with1 busy) 0x081000000000 State.rdata = some 1#32 := by decide
/-- OS6 -/
theorem test_wrChWave : issue base 0x180100000007 State.banks = some [{ Bank.reset with wave := 3#2 }, Bank.reset] := by decide
/-- R123 -/
theorem test_rdChWave : issue (with0 { busy with wave := 2#2 }) 0x080100000000 State.rdata = some 2#32 := by decide
/-- EN8 -/
theorem test_wrChVol : issue base 0x1812000001FF State.banks = some [Bank.reset, { Bank.reset with vol := 0xFF#8 }] := by decide
/-- R151 -/
theorem test_rdChVol : issue (with0 busy) 0x080200000000 State.rdata = some 9#32 := by decide
/-- DE6 -/
theorem test_wrChAtk : issue (with1 busy) 0x181300000100 State.banks = some [Bank.reset, { busy with atk := 0#8 }] := by decide
/-- R153 -/
theorem test_rdChAtk : issue (with0 busy) 0x080300000000 State.rdata = some 8#32 := by decide
/-- X2 line 5 -/
theorem test_wrChRls : issue (with0 busy) 0x180400000040 State.banks = some [{ busy with rls := 64#8 }, Bank.reset] := by decide
/-- R155 -/
theorem test_rdChRls : issue (with0 busy) 0x080400000000 State.rdata = some 7#32 := by decide
/-- DE6 -/
theorem test_wrChInc : issue (with1 busy) 0x181500012345 State.banks = some [Bank.reset, { busy with inc := 0x2345#16 }] := by decide
/-- R129 -/
theorem test_rdChInc : issue (with0 busy) 0x080500000000 State.rdata = some 0x123#32 := by decide
/-- OS6 -/
theorem test_wrChNote : issue (with1 busy) 0x181600000800 State.banks =
    some [Bank.reset, ⟨true, 1#2, 9#8, 8#8, 7#8, 0x0800#16, 0#16, 0#8, false⟩] := by decide
/-- EN8 -/
theorem test_wrChKeyoff : issue (with0 { busy with relf := false }) 0x18070000ABCD State.banks = some [busy, Bank.reset] := by decide
/-- OS6 -/
theorem test_wrChReset : issue (with0 busy) 0x180800000055 State.banks = some [Bank.reset, Bank.reset] := by decide
/-- X2 line 13 -/
theorem test_rdChAcc : issue (with0 { busy with acc := 0xE000#16 }) 0x080900000000 State.rdata = some 0xE000#32 := by decide
/-- X2 line 14 -/
theorem test_rdChLevel : issue (with0 { busy with level := 191#8 }) 0x080A00000000 State.rdata = some 0xBF#32 := by decide
/-- X3 line 23 -/
theorem test_rdChStat : issue (with0 busy) 0x080B00000000 State.rdata = some 3#32 := by decide
/-- OS6 -/
theorem test_rdChStat_disabled : issue (with0 { busy with en := false, inc := 5#16 }) 0x080B00000000 State.rdata = some 1#32 := by decide
/-- X1 line 14, `CAP = 4` -/
theorem test_pop : see (fun t => (t.frame, t.last, t.rd))
    (step (State.withFetchWord { base with k := 2, mem := [(0, 0xFFFEFFFF#32), (3, 0x00020001#32)], wr := 1, rd := 3 } 8 1)) =
      some (0x00020001#32, 0x00020001#32, 0) := by decide
/-- RB7 -/
theorem test_pop_empty : see (fun t => (t.frame, t.udr, t.rd))
    (step (State.withFetchWord { base with wr := 1, rd := 1, last := 0x00070007#32 } 8 1)) = some (0x00070007#32, true, 1) := by decide
/-- DE3: a channel that does not exist -/
theorem test_absent_channel : issue { base with rdata := 5#32 } 0x082000000000 State.rdata = some 0#32 := by decide
/-- RB8: a read of a write-only register -/
theorem test_write_only_read : issue { room with rdata := 5#32 } 0x001500000000 (fun t => (t.rdata, t.wr, t.ovr)) = some (0#32, 7, false) := by
  decide

/-! ### The internal steps -/

/-- M7, first row -/
theorem test_frame_no_room : see (fun t => (t.ovr, t.wr, t.div, t.rcnt, t.banks)) (step (m7 0 false)) =
    some (true, 7, 1#16, 0#16, [m7Bank]) := by decide
/-- M7, second row -/
theorem test_frame_paused : see (fun t => (t.mem, t.wr, t.div, t.tickcnt, t.banks)) (step (m7 7 true)) =
    some ([], 0, 1#16, 5#16, [m7Bank]) := by decide
/-- M7, third row -/
theorem test_frame_rendered : see (fun t => (t.mem, t.wr, t.div, t.tickcnt)) (step (m7 7 false)) =
    some ([(7, 0x000F000F#32)], 0, 0#16, 5#16) := by decide
/-- M7, fourth row -/
theorem test_frame_tick : see (fun t => (t.mem, t.div, t.tickcnt))
    (step { m7 7 false with div := 0#16, banks := [{ m7Bank with acc := 0x4000#16 }] }) = some ([(7, 0xFFF1FFF1#32)], 1#16, 6#16) := by
  decide
/-- EN1 -/
theorem test_tick_attack : ({ Bank.reset with en := true, vol := 9#8, atk := 255#8 } : Bank).tick.level = 8#8 := by decide
/-- EN2: the arithmetic shift rounds down -/
theorem test_tick_lowered : ({ Bank.reset with en := true, vol := 100#8, atk := 64#8, level := 101#8 } : Bank).tick.level = 100#8 := by
  decide
/-- EN5 -/
theorem test_tick_release : ({ busy with level := 200#8, rls := 64#8 } : Bank).tick.level = 150#8 := by decide
/-- EN5: `RLS = 0` -/
theorem test_tick_release_slowest : ({ busy with level := 255#8, rls := 0#8 } : Bank).tick.level = 254#8 := by decide
/-- OS1 -/
theorem test_phase_wraps : ({ busy with acc := 0xF000#16, inc := 0x3000#16 } : Bank).advance.acc = 0x2000#16 := by decide
/-- OS2: the three duty cycles -/
theorem test_squares :
    ({ busy with wave := 0#2, acc := 0x4000#16, level := 255#8 } : Bank).contribution = -31 ∧
    ({ busy with wave := 1#2, acc := 0x7FFF#16, level := 255#8 } : Bank).contribution = 31 ∧
    ({ busy with wave := 2#2, acc := 0xBFFF#16, level := 255#8 } : Bank).contribution = 31 ∧
    ({ busy with wave := 2#2, acc := 0xC000#16, level := 255#8 } : Bank).contribution = -31 := by decide
/-- OS4: the triangle's fold and sign -/
theorem test_triangle :
    ({ busy with wave := 3#2, acc := 0x4000#16, level := 255#8 } : Bank).contribution = 47 ∧
    ({ busy with wave := 3#2, acc := 0x5000#16, level := 255#8 } : Bank).contribution = 31 ∧
    ({ busy with wave := 3#2, acc := 0xB000#16, level := 100#8 } : Bank).contribution = -18 := by decide
/-- M2, M3, M4: division with truncation toward zero, and both samples of the frame -/
theorem test_mix : tdiv (-1) 2 = 0 ∧ tdiv (-3) 2 = -1 ∧ tdiv (-9) 3 = -3 ∧ tdiv 5 4 = 1 ∧ packFrame (-20) = 0xFFECFFEC#32 := by decide
/-- R280: the reset event, "whatever it was before" -/
theorem test_reset_turn : see (fun t => (t.wr, t.rd, t.banks, t.ovr))
    (step { with0 busy with sched := [.reset], rd := 3, ovr := true }) = some (7, 0, [Bank.reset, Bank.reset], false) := by decide
/-- 30_encoding.md R95 -/
theorem test_push_pseudo : expand (.push 0x5555#16 0xAAAA#16) = [.wrRbPush 0xAAAA5555#32] := by decide

/-! ### Witnesses: a state and operands that meet the hypotheses of each statement -/

theorem sound_base : Sound base := ⟨by decide, by decide, by decide, by decide, by decide, by decide, by decide⟩
theorem sound_room : Sound room := ⟨by decide, by decide, by decide, by decide, by decide, by decide, by decide⟩

/-- `room` with a burst of 5 pending and the schedule `l`. -/
def burst (l : List Turn) : State := { room with rcnt := 5#16, sched := l }

theorem sound_burst (l : List Turn) : Sound (burst l) :=
  ⟨sound_room.params, sound_room.memWf, sound_room.memInside, sound_room.wrInside, sound_room.rdInside, sound_room.sptNonzero,
    sound_room.divBound⟩

theorem witness_DecoderAgreesWithTheOpcodeTable :
    (⟨"WR.CTRL", 0x100000000000#45, globalMask⟩ : TableRow) ∈ opcodeTable ∧
    (⟨"RD.CH_STAT", 0x080B00000000#45, channelMask⟩ : TableRow) ∈ opcodeTable := by decide
theorem witness_ReadDataIsIgnoredByTheDecoder :
    busRw 0x0832FFFFFFFF#45 = false ∧ busRw 0x083200000000#45 = false ∧ busAddr 0x0832FFFFFFFF#45 = busAddr 0x083200000000#45 := by decide
theorem witness_StepRunsTheDecodedOperation :
    (∃ s t rest i, nextTurn s = some .host ∧ s.rcnt = 0#16 ∧ s.bus = t :: rest ∧ decode (.bus t) = .ok i) ∧
    (∃ s t rest e, nextTurn s = some .host ∧ s.rcnt = 0#16 ∧ s.bus = t :: rest ∧ decode (.bus t) = .error e ∧ busRw t = true) ∧
    (∃ s t rest e, nextTurn s = some .host ∧ s.rcnt = 0#16 ∧ s.bus = t :: rest ∧ decode (.bus t) = .error e ∧ busRw t = false) ∧
    (∃ s n, nextTurn s = some .consumer ∧ s.pops = n + 1) ∧ (∃ s, nextTurn s = some .engine ∧ s.rcnt ≠ 0#16) :=
  ⟨⟨{ base with bus := [0x100300000007#45], sched := [.host] }, _, _, .wrRender 7#32, rfl, rfl, rfl, by decide⟩,
    ⟨{ base with bus := [0x101000000009#45] }, _, _, .readOnlyWrite, rfl, rfl, rfl, by decide, by decide⟩,
    ⟨{ base with bus := [0x07FF00000000#45] }, _, _, .reservedRead, rfl, rfl, rfl, by decide, by decide⟩,
    ⟨{ base with pops := 1, sched := [.consumer] }, 0, rfl, rfl⟩, burst [.engine], rfl, by decide⟩
theorem witness_PlacedOperationRunsNext : encode (.wrChEn 127#7 0xFFFFFFFF#32) = .bus 0x1FF0FFFFFFFF#45 := by decide
theorem witness_HostIsHeldWhileABurstIsPending :
    ((burst [.host]).rcnt ≠ 0#16 ∧ nextTurn (burst [.host]) = some .host) ∧
    ({ base with sched := [.engine] } : State).rcnt = 0#16 ∧ nextTurn { base with sched := [.engine] } = some .engine := by decide
theorem witness_HoldEndsAfterTheBurstWhateverTheConsumerDoes :
    (burst [.engine, .consumer, .engine, .host]).sched = [.engine, .consumer, .engine] ++ [.host] ∧
    ∀ u ∈ [Turn.engine, .consumer, .engine], u = .engine ∨ u = .consumer := by decide
theorem witness_InvariantHoldsAfterReset :
    (Config.mk 1 1 1#16).wf = true ∧ (Config.mk 128 16 0xFFFF#16).wf = true := by decide
theorem witness_EveryStepKeepsTheInvariant : Sound (burst [.engine]) ∧ ∃ t, step (burst [.engine]) = .next t :=
  ⟨sound_burst _, _, rfl⟩
theorem witness_NoStepChangesTheParameters : ∃ t, step { base with sched := [.reset] } = .next t := ⟨_, rfl⟩
theorem witness_ResetGivesTheTableOfResetValues : nextTurn { room with sched := [.reset] } = some .reset := by decide
theorem witness_RegistersReadTheirResetValues : State.reset = State.resetOf ⟨2, 3, 1#16⟩ ∧ 15 < 16 := by decide
theorem witness_PrefillDrainsThenUnderruns : 7 ≤ 2 ^ (Config.mk 2 3 1#16).k - 1 ∧ 8 = 2 ^ (Config.mk 2 3 1#16).k := by decide
theorem witness_WrSptStoresANonzeroValueAndRejectsZero :
    (0xFFFF0000#32).setWidth 16 = 0#16 ∧ (0x00000001#32).setWidth 16 ≠ 0#16 := by decide
theorem witness_GlobalRegistersReadTheirValues : Sound base := sound_base
theorem witness_ChannelFieldWritesStoreTheFieldAlone : (with1 busy).banks[(1#7 : Chan).toNat]? = some busy := by decide
theorem witness_ChannelFieldReadsAnswerTheField : (with0 busy).banks[(0#7 : Chan).toNat]? = some busy := by decide
theorem witness_ChStatReadsReleaseAndActivity :
    ((with1 busy).banks[(1#7 : Chan).toNat]? = some busy ∧ busy.en = true ∧ busy.inc ≠ 0#16) ∧
    ((with1 busy).banks[(0#7 : Chan).toNat]? = some Bank.reset ∧ ¬(Bank.reset.en = true ∧ Bank.reset.inc ≠ 0#16)) := by decide
theorem witness_NoteOnRestartsPhaseAndEnvelope : (with1 busy).banks[(1#7 : Chan).toNat]? = some busy := by decide
theorem witness_KeyOffSetsTheReleaseFlagAlone : (with1 busy).banks[(1#7 : Chan).toNat]? = some busy := by decide
theorem witness_ChResetZeroesTheBankAlone : (with1 busy).banks[(1#7 : Chan).toNat]? = some busy := by decide
theorem witness_AbsentChannelReadsZeroAndIgnoresWrites : base.nch ≤ (2#7 : Chan).toNat ∧ 0 < 16 ∧ 15 < 16 := by decide
theorem witness_ReservedAddressReadsZeroAndIgnoresWrites :
    ((0x006 ≤ 0x006 ∧ 0x006 ≤ 0x00F) ∧ (0x006 ≤ 0x00F ∧ 0x00F ≤ 0x00F)) ∧
    ((0x016 ≤ 0x016 ∧ 0x016 ≤ 0x7FF) ∧ (0x016 ≤ 0x7FF ∧ 0x7FF ≤ 0x7FF)) ∧
    ((0xC ≤ 0xC ∧ 0xC ≤ 0xF) ∧ (0xC ≤ 0xF ∧ 0xF ≤ 0xF)) := by decide
theorem witness_ReadOnlyRegistersIgnoreWrites :
    0x014#12 ∈ [0x004#12, 0x005#12, 0x010#12, 0x011#12, 0x012#12, 0x013#12, 0x014#12] ∧ 0xB ∈ [0x9, 0xA, 0xB] := by decide
theorem witness_WriteOnlyRegistersReadZeroWithoutAction : 0x015#12 ∈ [0x003#12, 0x015#12] ∧ 0x8 ∈ [0x6, 0x7, 0x8] := by decide
theorem witness_ChannelOperationTouchesItsOwnBankAlone :
    (Instr.rdChAcc 0#7).chan = some 0#7 ∧ (∃ t, exec (.rdChAcc 0#7) (with0 busy) = .next t) ∧
    (∃ t, exec (.rdChAcc 0#7) { with0 busy with ovr := true } = .next t) ∧
    ({ with0 busy with ovr := true } : State).banks[(0#7 : Chan).toNat]? = (with0 busy).banks[(0#7 : Chan).toNat]? :=
  ⟨by decide, ⟨_, rfl⟩, ⟨_, rfl⟩, by decide⟩
theorem witness_NoReadHasASideEffect :
    busRw 0x080900000000#45 = false ∧ ∃ t, perform (.bus 0x080900000000#45) (with0 busy) = .next t := ⟨by decide, _, rfl⟩
theorem witness_PlainWritesAndIdempotentStrobesRepeatToNothing : ∃ t, exec (.wrChNote 1#7 5#32) (with1 busy) = .next t := ⟨_, rfl⟩
theorem witness_EngineStepRendersOneFrame :
    (nextTurn (m7 0 false) = some .engine ∧ (m7 0 false).rcnt ≠ 0#16 ∧ free (m7 0 false) = 0) ∧
    (nextTurn (m7 7 true) = some .engine ∧ (m7 7 true).rcnt ≠ 0#16 ∧ free (m7 7 true) ≠ 0 ∧ (m7 7 true).pause = true) ∧
    (nextTurn (m7 7 false) = some .engine ∧ (m7 7 false).rcnt ≠ 0#16 ∧ free (m7 7 false) ≠ 0 ∧ (m7 7 false).pause = false) := by decide
theorem witness_AttackStepApproachesTheVolume :
    Bank.reset.en = false ∧
    (∃ b : Bank, b.en = true ∧ b.relf = false ∧ b.level.toNat < b.vol.toNat ∧ b.level = 0#8) ∧
    (∃ b : Bank, b.en = true ∧ b.relf = false ∧ b.vol.toNat < b.level.toNat ∧ b.atk ≠ 0#8) ∧
    (∃ b : Bank, b.en = true ∧ b.relf = false ∧ b.vol = b.level ∧ b.atk ≠ 0#8) ∧
    (∃ b : Bank, b.en = true ∧ b.relf = false ∧ b.vol ≠ b.level ∧ b.atk = 0#8) :=
  ⟨rfl, ⟨{ Bank.reset with en := true, vol := 255#8, atk := 1#8 }, by decide⟩,
    ⟨{ Bank.reset with en := true, atk := 1#8, level := 1#8 }, by decide⟩,
    ⟨{ Bank.reset with en := true, vol := 100#8, atk := 77#8, level := 100#8 }, by decide⟩,
    ⟨{ Bank.reset with en := true, vol := 255#8 }, by decide⟩⟩
theorem witness_LoweredVolumeIsReachedExactly :
    ∃ b : Bank, b.en = true ∧ b.relf = false ∧ b.atk ≠ 0#8 ∧ b.vol.toNat ≤ b.level.toNat ∧ b.level.toNat - b.vol.toNat ≤ 100 :=
  ⟨{ Bank.reset with en := true, vol := 100#8, atk := 64#8, level := 200#8 }, by decide⟩
theorem witness_ReleaseDecaysStrictlyToSilence :
    (busy.en = true ∧ busy.relf = true ∧ busy.level ≠ 0#8 ∧ busy.level.toNat ≤ 77) ∧
    ∃ b : Bank, b.en = true ∧ b.relf = true ∧ b.level = 0#8 := ⟨by decide, { busy with level := 0#8 }, by decide⟩
theorem witness_ContributionStaysInItsRange : busy.wave ≠ 3#2 := by decide
theorem witness_PhaseAdvancesByTheIncrement :
    ¬(Bank.reset.en = true ∧ Bank.reset.inc ≠ 0#16) ∧ busy.en = true ∧ busy.inc ≠ 0#16 := by decide
theorem witness_MixIgnoresTheOrderOfChannels : List.Perm [busy, m7Bank] [m7Bank, busy] := List.Perm.swap _ _ _
theorem witness_SilenceIsExactlyZero :
    Sound (burst [.engine]) ∧ nextTurn (burst [.engine]) = some .engine ∧ (burst [.engine]).rcnt ≠ 0#16 ∧
    free (burst [.engine]) ≠ 0 ∧ ∀ b ∈ (burst [.engine]).banks, b.en = false ∨ b.inc = 0#16 :=
  ⟨sound_burst _, by decide, by decide, by decide, by decide⟩
theorem witness_SilenceIsExactlyZero_paused :
    Sound (m7 7 true) ∧ nextTurn (m7 7 true) = some .engine ∧ (m7 7 true).rcnt ≠ 0#16 ∧ free (m7 7 true) ≠ 0 ∧
    (m7 7 true).pause = true :=
  ⟨⟨by decide, by decide, by decide, by decide, by decide, by decide, by decide⟩, by decide, by decide, by decide, by decide⟩
theorem witness_TwoEqualChannelsKeepHeadroom :
    m7Bank.active = true ∧ busy.active = true ∧ m7Bank.contribution = 31 ∧
    ({ busy with level := 255#8 } : Bank).active = true ∧ ({ busy with level := 255#8 } : Bank).contribution = 31 ∧ (0 : Int) < 31 := by
  decide
theorem witness_RbPushQueuesOrIsRejected : base.mem.wf ∧ free base = 0 ∧ room.mem.wf ∧ free room ≠ 0 := by decide
theorem witness_PopDeliversOrHoldsTheLastFrame : occ room = 0 ∧ occ base ≠ 0 := by decide
theorem witness_RingBufferIsABoundedFifo :
    (Sound room ∧ (queue room).length < 2 ^ room.k - 1 ∧ queue room = []) ∧
    (Sound base ∧ (queue base).length = 2 ^ base.k - 1 ∧ queue base = 0#32 :: List.replicate 6 0#32) :=
  ⟨⟨sound_room, by decide, by decide⟩, sound_base, by decide, by decide⟩
theorem witness_EngineStepQueuesOneFrameInOrder :
    (Sound (burst [.engine]) ∧ nextTurn (burst [.engine]) = some .engine ∧ (burst [.engine]).rcnt ≠ 0#16 ∧ free (burst [.engine]) ≠ 0) ∧
    (Sound (m7 0 false) ∧ nextTurn (m7 0 false) = some .engine ∧ (m7 0 false).rcnt ≠ 0#16 ∧ free (m7 0 false) = 0) :=
  ⟨⟨sound_burst _, by decide⟩,
    ⟨by decide, by decide, by decide, by decide, by decide, by decide, by decide⟩, by decide⟩
theorem witness_EachSideWritesItsOwnIndexAlone :
    (∃ t, step (burst [.engine]) = .next t ∧ nextTurn (burst [.engine]) = some .engine) ∧
    (∃ t, step { base with bus := [0x100100000002#45] } = .next t ∧ nextTurn { base with bus := [0x100100000002#45] } = some .host) ∧
    (∃ t, step { base with pops := 1 } = .next t ∧ nextTurn { base with pops := 1 } = some .consumer) :=
  ⟨⟨_, rfl, by decide⟩, ⟨_, rfl, by decide⟩, _, rfl, by decide⟩
theorem witness_ConsumerStepNeverLowersTheRoom :
    Sound { base with pops := 1, sched := [.consumer] } ∧ nextTurn { base with pops := 1, sched := [.consumer] } = some .consumer ∧
    ∃ t, step { base with pops := 1, sched := [.consumer] } = .next t :=
  ⟨⟨by decide, by decide, by decide, by decide, by decide, by decide, by decide⟩, by decide, _, rfl⟩
theorem witness_DrainedFramesAreTheReadIndexDifference :
    ∃ s, Sound s ∧ 7 ≤ occ s ∧ 7 ≤ s.pops ∧ s.sched = List.replicate 7 .consumer ++ [.host] :=
  ⟨{ base with pops := 7, sched := List.replicate 7 .consumer ++ [.host] },
    ⟨by decide, by decide, by decide, by decide, by decide, by decide, by decide⟩, by decide⟩
/-- `room` with a transaction, two pops and a burst of 5 waiting: the pushes of the burst, and one of the two pops empty. -/
def mixedRun : State := { room with
  bus := [0x100300000005#45], pops := 2, sched := [.consumer, .host, .engine, .engine, .consumer, .engine, .host, .engine, .engine] }

theorem witness_DrainedFramesAreTheReadIndexDifference_mixed :
    Sound mixedRun ∧ Turn.reset ∉ mixedRun.sched ∧ countRun pushAttempts 9 mixedRun ≤ free mixedRun :=
  ⟨⟨sound_room.params, sound_room.memWf, sound_room.memInside, sound_room.wrInside, sound_room.rdInside, sound_room.sptNonzero,
    sound_room.divBound⟩, by decide, by decide⟩
/-- R292 counts attempts and non-empty pops: five frame steps, and one of two pops. -/
theorem test_countRun_mixed : countRun pushAttempts 9 mixedRun = 5 ∧ countRun framesPopped 9 mixedRun = 1 := by decide
/-- A host push is an attempt; with the port held it waits. -/
theorem test_pushAttempts_host :
    pushAttempts { room with bus := [0x101512345678#45] } = 1 ∧
    pushAttempts { room with bus := [0x101512345678#45], rcnt := 1#16, sched := [.host] } = 0 ∧
    pushAttempts { room with bus := [0x100200000004#45] } = 0 := by decide
/-- The attempts may be exactly the room: 7 frames into 7 free slots. -/
theorem witness_DrainedFramesAreTheReadIndexDifference_full :
    ∃ s, Sound s ∧ Turn.reset ∉ s.sched ∧ countRun pushAttempts 7 s = 7 ∧ free s = 7 :=
  ⟨{ room with rcnt := 7#16 },
    ⟨sound_room.params, sound_room.memWf, sound_room.memInside, sound_room.wrInside, sound_room.rdInside, sound_room.sptNonzero,
      sound_room.divBound⟩, by decide, by decide, by decide⟩
theorem witness_PausedBurstFreezesTheSound :
    ∃ s : State, s.pause = true ∧ s.rcnt ≠ 0#16 ∧ s.sched = [.engine, .consumer, .engine] ++ [] ∧
      ∀ u ∈ [Turn.engine, .consumer, .engine], u = .engine ∨ u = .consumer :=
  ⟨{ burst [.engine, .consumer, .engine] with pause := true }, by decide⟩
theorem witness_TicksFallEverySptFrames :
    ∃ s, Sound s ∧ s.spt = 2#16 ∧ s.pause = false ∧ s.div = 0#16 ∧ 5 ≤ free s ∧ 5 ≤ s.rcnt.toNat ∧
      s.sched = List.replicate 5 .engine ++ [.host] :=
  ⟨{ burst (List.replicate 5 .engine ++ [.host]) with spt := 2#16 },
    ⟨by decide, by decide, by decide, by decide, by decide, by decide, by decide⟩, by decide⟩
/-- GC9 -/
theorem witness_LoweredSptEndsThePeriodWithTheNextFrame :
    ∃ s, nextTurn s = some .engine ∧ s.rcnt ≠ 0#16 ∧ free s ≠ 0 ∧ s.pause = false ∧ s.div ≠ 0#16 ∧ s.spt.toNat ≤ s.div.toNat :=
  ⟨{ burst [.engine] with spt := 2#16, div := 3#16 }, by decide⟩
theorem witness_DivStaysBelowSptWhileSptIsLeftAlone :
    Sound (burst [.engine]) ∧ (burst [.engine]).div.toNat < (burst [.engine]).spt.toNat ∧
    ∃ t, step (burst [.engine]) = .next t ∧ t.spt = (burst [.engine]).spt := ⟨sound_burst _, by decide, _, rfl, by decide⟩
theorem witness_FlagsChangeNoBehaviour :
    (∃ t, step { base with bus := [0x000100000000#45] } = .next t) ∧ Instr.pop ≠ .rdStatus ∧ ∃ t, exec .pop base = .next t :=
  ⟨⟨_, rfl⟩, by decide, _, rfl⟩
theorem witness_CanonicalStorageIsDeterminedByItsReadings :
    Memory.wf [(0, 1#32), (7, 2#32)] ∧ ∀ a, Memory.read [(0, 1#32), (7, 2#32)] a = Memory.read (Memory.write [(0, 1#32)] 7 2#32) a :=
  ⟨by decide, fun _ => rfl⟩
theorem witness_PseudoOperationsExpandAsTabled : (with1 busy).banks[(1#7 : Chan).toNat]? = some busy := by decide

end Sys2Proof.Tests
end

/-! SUPPORT. The state family (spec/10_state.md): what an operation and a step can do, said once; the invariant, the parameters and
`DIV` along a step; the ring buffer as a queue; the canonical storage; the reset state. -/

namespace Sys2Proof.Machine

/-! ### Frames of the shared operations -/

section push

/-- What `Push` leaves: every field but the storage, `WR` and `OVR` (44_ring_buffer.md R191, R192). -/
theorem push_eq (f : Word) (s : State) :
    push f s = { s with mem := (push f s).mem, wr := (push f s).wr, ovr := (push f s).ovr } := by
  rcases push_cases f s with ⟨_, e⟩ | ⟨_, e⟩ <;> rw [e]
  rfl

@[simp] theorem push_k (f : Word) (s : State) : (push f s).k = s.k := by rw [push_eq]
@[simp] theorem push_rd (f : Word) (s : State) : (push f s).rd = s.rd := by rw [push_eq]
@[simp] theorem push_spt (f : Word) (s : State) : (push f s).spt = s.spt := by rw [push_eq]
@[simp] theorem push_div (f : Word) (s : State) : (push f s).div = s.div := by rw [push_eq]
@[simp] theorem push_banks (f : Word) (s : State) : (push f s).banks = s.banks := by rw [push_eq]
@[simp] theorem push_cap (f : Word) (s : State) : (push f s).cap = s.cap := by rw [push_eq]; rfl
@[simp] theorem push_config (f : Word) (s : State) : (push f s).config = s.config := by rw [push_eq]; rfl

theorem push_of_full {s : State} (h : free s = 0) (f : Word) : push f s = setOvr s := if_pos h

theorem push_of_room {s : State} (h : free s ≠ 0) (f : Word) :
    push f s = { s with mem := s.mem.write s.wr f, wr := (s.wr + 1) % s.cap } := if_neg h

end push

section deliver

@[simp] theorem deliver_k (s : State) : (deliver s).k = s.k := by rw [deliver_eq]
@[simp] theorem deliver_mem (s : State) : (deliver s).mem = s.mem := by rw [deliver_eq]
@[simp] theorem deliver_wr (s : State) : (deliver s).wr = s.wr := by rw [deliver_eq]
@[simp] theorem deliver_spt (s : State) : (deliver s).spt = s.spt := by rw [deliver_eq]
@[simp] theorem deliver_div (s : State) : (deliver s).div = s.div := by rw [deliver_eq]
@[simp] theorem deliver_cap (s : State) : (deliver s).cap = s.cap := by rw [deliver_eq]; rfl
@[simp] theorem deliver_config (s : State) : (deliver s).config = s.config := by rw [deliver_eq]; rfl

theorem deliver_of_empty {s : State} (h : occ s = 0) : deliver s = { s with udr := true, frame := s.last } := if_pos h

theorem deliver_of_queued {s : State} (h : occ s ≠ 0) :
    deliver s = { s with frame := s.mem.read s.rd, last := s.mem.read s.rd, rd := (s.rd + 1) % s.cap } := if_neg h

end deliver

@[simp] theorem updateBank_config (c : Chan) (f : Bank → Bank) (s : State) : (updateBank c f s).config = s.config :=
  State.config_congr (by simp) rfl rfl

@[simp] theorem length_tickIfDue_banks (s : State) : (tickIfDue s).banks.length = s.banks.length := by
  rw [tickIfDue_banks]
  split
  · exact List.length_map _
  · rfl

/-- A rendered frame is a push of the mix, with the banks, the tick counter and `DIV` advanced (43_mixer.md R176). -/
theorem renderFrame_eq_push {s : State} (h : free s ≠ 0) :
    renderFrame s =
      { push (packFrame (mixValue ((tickIfDue s).banks.map Bank.advance))) s with
        banks := (tickIfDue s).banks.map Bank.advance
        tickcnt := (tickIfDue s).tickcnt
        div := nextDiv s } := by
  rw [renderFrame_eq s h, push_of_room h]

/-- Every step of the render engine is a push and `RCNT` counted down: of silence (on a full buffer the push is rejected) or of a
rendered frame (43_mixer.md R176, R177). -/
theorem engineStep_cases (s : State) :
    ((free s = 0 ∨ s.pause = true) ∧ engineStep s = { push 0#32 s with rcnt := s.rcnt - 1#16 }) ∨
      (free s ≠ 0 ∧ s.pause = false ∧ engineStep s =
        { push (packFrame (mixValue ((tickIfDue s).banks.map Bank.advance))) s with
          banks := (tickIfDue s).banks.map Bank.advance
          tickcnt := (tickIfDue s).tickcnt
          div := nextDiv s
          rcnt := s.rcnt - 1#16 }) := by
  rw [engineStep_eq]
  rcases frameStep_cases s with ⟨hfull, e⟩ | ⟨_, hpause, e⟩ | ⟨hroom, hplay, e⟩
  · exact .inl ⟨.inl hfull, by rw [e, push_of_full hfull]⟩
  · exact .inl ⟨.inr hpause, by rw [e]⟩
  · exact .inr ⟨hroom, hplay, by rw [e, renderFrame_eq_push hroom]⟩

@[simp] theorem engineStep_config (s : State) : (engineStep s).config = s.config := by
  rcases engineStep_cases s with ⟨_, e⟩ | ⟨_, _, e⟩ <;> rw [e]
  · exact push_config 0#32 s
  · exact State.config_congr (by simp) (push_k _ s) (by rw [push_eq])

/-- The render engine's step keeps `DIV` or counts it (43_mixer.md R176). -/
theorem engineStep_div (s : State) : (engineStep s).div = s.div ∨ (engineStep s).div = nextDiv s := by
  rcases engineStep_cases s with ⟨_, e⟩ | ⟨_, _, e⟩ <;> rw [e]
  · exact .inl (push_div 0#32 s)
  · exact .inr rfl

/-! ### What an operation and a step can do -/

/-- What one operation can do to the state: one constructor per kind of update the meanings make. -/
inductive Effect (s : State) : State → Prop where
  | pause (b : Bool) : Effect s { s with pause := b }
  | clearFlags (d : Word) : Effect s (clearFlags d s)
  | setCfgerr : Effect s (setCfgerr s)
  | spt (v : Half) (hv : v ≠ 0#16) : Effect s { s with spt := v }
  | rcnt (n : Half) : Effect s { s with rcnt := n }
  | answer (v : Word) : Effect s (answer v s)
  | bank (c : Chan) (f : Bank → Bank) : Effect s (updateBank c f s)
  | push (f : Word) : Effect s (push f s)
  | deliver : Effect s (deliver s)

/-- Every operation has a next state, and it is one of the `Effect`s. -/
theorem exec_effect (i : Instr) (s : State) : ∃ t, exec i s = .next t ∧ Effect s t := by
  cases i with
  | wrCtrl d => exact ⟨_, rfl, .pause _⟩
  | wrStatus d => exact ⟨_, rfl, .clearFlags d⟩
  | wrSpt d =>
    refine ⟨_, rfl, ?_⟩
    split
    · exact .setCfgerr
    · exact .spt _ ‹_›
  | wrRender d => exact ⟨_, rfl, .rcnt _⟩
  | wrRbPush d => exact ⟨_, rfl, .push d⟩
  | pop => exact ⟨_, rfl, .deliver⟩
  | rdCtrl | rdStatus | rdSpt | rdDiv | rdTickcnt | rdRbCap | rdRbWr | rdRbRd | rdRbOcc | rdRbFree
  | rdChEn c | rdChWave c | rdChVol c | rdChAtk c | rdChRls c | rdChInc c | rdChAcc c | rdChLevel c | rdChStat c =>
    exact ⟨_, rfl, .answer _⟩
  | wrChEn c d | wrChWave c d | wrChVol c d | wrChAtk c d | wrChRls c d | wrChInc c d | wrChNote c d | wrChKeyoff c d
  | wrChReset c d =>
    exact ⟨_, rfl, .bank c _⟩

theorem Effect.of_exec {i : Instr} {s t : State} (h : exec i s = .next t) : Effect s t := by
  obtain ⟨u, hu, heff⟩ := exec_effect i s
  obtain rfl : u = t := Host.Outcome.next.inj (hu.symm.trans h)
  exact heff

/-- No operation changes a parameter (10_state.md R21). -/
theorem Effect.config_eq {s t : State} (h : Effect s t) : t.config = s.config := by
  cases h with
  | pause | clearFlags | setCfgerr | spt | rcnt | answer => rfl
  | bank c f => exact updateBank_config c f s
  | push f => exact push_config f s
  | deliver => exact deliver_config s

/-- No operation changes `DIV`: only the render engine counts it (10_state.md R28). -/
theorem Effect.div_eq {s t : State} (h : Effect s t) : t.div = s.div := by
  cases h with
  | pause | clearFlags | setCfgerr | spt | rcnt | answer | bank => rfl
  | push f => exact push_div f s
  | deliver => exact deliver_div s

/-- The induction over steps, packaged: a property of the state that does not depend on the requests waiting at the ports or on the
schedule, and that every operation, the render engine's step and reset keep, is kept by every step. -/
theorem step_keeps {P : State → Prop}
    (ports : ∀ s bus pops sched, P s → P { s with bus := bus, pops := pops, sched := sched })
    (op : ∀ s t, Effect s t → P s → P t)
    (engine : ∀ s, P s → P (engineStep s))
    (reset : ∀ s, P s → P (State.resetOf s.config))
    {s t : State} (hs : P s) (h : step s = .next t) : P t := by
  rcases step_cases h with rfl | ⟨w, rest, i, _, _, _, _, he⟩ | ⟨w, rest, e, _, _, _, _, rfl⟩ | ⟨_, _, rfl⟩ | ⟨n, _, _, rfl⟩ |
    ⟨_, rfl⟩
  · exact ports s _ _ _ hs
  · exact op _ _ (.of_exec he) (ports s _ _ _ hs)
  · have hp : P { dropTurn s with bus := rest } := ports s _ _ _ hs
    rcases unmatched_eq e { dropTurn s with bus := rest } with hu | hu <;> rw [hu]
    · exact hp
    · exact op _ _ (.answer 0#32) hp
  · exact engine _ (ports s _ _ _ hs)
  · exact op _ _ .deliver (ports s _ _ _ hs)
  · exact ports _ _ _ _ (reset s hs)

/-- Settles O12: no operation, no step of the render engine and no reset changes a parameter. -/
theorem noStepChangesTheParameters : Obligations.NoStepChangesTheParameters := by
  intro s t h
  refine step_keeps (P := fun u => u.config = s.config) ?_ ?_ ?_ ?_ rfl h
  · exact fun _ _ _ _ hu => hu
  · exact fun _ _ he hu => he.config_eq.trans hu
  · exact fun u hu => (engineStep_config u).trans hu
  · exact fun u hu => (State.config_resetOf u.config).trans hu

/-! ### The invariant -/

/-- The invariant speaks of the parameters, the ring, `SPT` and `DIV` alone. -/
theorem Sound.of_ring_eq {s t : State} (hs : Sound s) (hconfig : t.config = s.config) (hmem : t.mem = s.mem) (hwr : t.wr = s.wr)
    (hrd : t.rd = s.rd) (hspt : t.spt ≠ 0#16) (hdiv : t.div.toNat ≤ 65534) : Sound t := by
  have hcap : t.cap = s.cap := congrArg (fun c => 2 ^ c.k) hconfig
  exact
    { params := hconfig ▸ hs.params
      memWf := hmem ▸ hs.memWf
      memInside := by rw [hmem, hcap]; exact hs.memInside
      wrInside := by rw [hwr, hcap]; exact hs.wrInside
      rdInside := by rw [hrd, hcap]; exact hs.rdInside
      sptNonzero := hspt
      divBound := hdiv }

/-- `Push` keeps the invariant: the slot written is `WR`, inside the buffer (44_ring_buffer.md R191). -/
theorem Sound.push {s : State} (hs : Sound s) (f : Word) : Sound (push f s) := by
  rcases push_cases f s with ⟨_, e⟩ | ⟨_, e⟩ <;> rw [e]
  · exact hs.of_ring_eq rfl rfl rfl rfl hs.sptNonzero hs.divBound
  · exact
      { hs with
        memWf := Memory.write_wf hs.memWf s.wr f
        memInside := by
          intro x hx
          rcases Memory.mem_write hx with hold | ⟨rfl, _⟩
          · exact hs.memInside x hold
          · exact hs.wrInside
        wrInside := Nat.mod_lt _ s.cap_pos }

theorem Sound.deliver {s : State} (hs : Sound s) : Sound (deliver s) := by
  rcases deliver_cases s with ⟨_, e⟩ | ⟨_, e⟩ <;> rw [e]
  · exact hs.of_ring_eq rfl rfl rfl rfl hs.sptNonzero hs.divBound
  · exact { hs with rdInside := Nat.mod_lt _ s.cap_pos }

theorem Sound.effect {s t : State} (he : Effect s t) (hs : Sound s) : Sound t := by
  cases he with
  | pause | clearFlags | setCfgerr | rcnt | answer => exact hs.of_ring_eq rfl rfl rfl rfl hs.sptNonzero hs.divBound
  | spt v hv => exact hs.of_ring_eq rfl rfl rfl rfl hv hs.divBound
  | bank c f => exact hs.of_ring_eq (updateBank_config c f s) rfl rfl rfl hs.sptNonzero hs.divBound
  | push f => exact hs.push f
  | deliver => exact hs.deliver

theorem Sound.engineStep {s : State} (hs : Sound s) : Sound (engineStep s) := by
  have hconfig := engineStep_config s
  rcases engineStep_cases s with ⟨_, e⟩ | ⟨_, _, e⟩
  · have hp := hs.push 0#32
    rw [e]
    exact hp.of_ring_eq rfl rfl rfl rfl hp.sptNonzero hp.divBound
  · have hp := hs.push (packFrame (mixValue ((tickIfDue s).banks.map Bank.advance)))
    rw [e] at hconfig ⊢
    exact hp.of_ring_eq (hconfig.trans (push_config _ s).symm) rfl rfl rfl hp.sptNonzero (nextDiv_le s)

theorem Config.sptReset_ne_zero {c : Config} (h : c.wf = true) : c.sptReset ≠ 0#16 := by
  simp only [Config.wf, Bool.and_eq_true, decide_eq_true_eq] at h
  exact h.2

/-- A reset state is sound, for every choice of the parameters in their ranges (10_state.md R56; 00_scope.md R7). -/
theorem sound_resetOf {c : Config} (h : c.wf = true) : Sound (State.resetOf c) where
  params := by rw [State.config_resetOf]; exact h
  memWf := ⟨List.Pairwise.nil, fun _ hx => absurd hx List.not_mem_nil⟩
  memInside := fun _ hx => absurd hx List.not_mem_nil
  wrInside := Nat.sub_one_lt (Nat.two_pow_pos c.k).ne'
  rdInside := Nat.two_pow_pos c.k
  sptNonzero := Config.sptReset_ne_zero h
  divBound := Nat.zero_le _

/-- Settles O10, the model's own choice of parameters being in range. -/
theorem invariantHoldsAfterReset : Obligations.InvariantHoldsAfterReset :=
  ⟨fun _ => sound_resetOf, sound_resetOf (by decide)⟩

/-- Settles O11: `Sound` does not depend on the ports, and every operation, the render engine's step and reset keep it. -/
theorem everyStepKeepsTheInvariant : Obligations.EveryStepKeepsTheInvariant := by
  intro s t hs h
  refine step_keeps (P := Sound) ?_ ?_ ?_ ?_ hs h
  · exact fun u _ _ _ hu => hu.of_ring_eq rfl rfl rfl rfl hu.sptNonzero hu.divBound
  · exact fun _ _ he hu => hu.effect he
  · exact fun _ hu => hu.engineStep
  · exact fun _ hu => sound_resetOf hu.params

/-! ### `DIV` below `SPT` -/

/-- A frame step counts `DIV` to a value below `SPT` (43_mixer.md R176). -/
theorem nextDiv_lt_spt {s : State} (h : s.spt ≠ 0#16) : (nextDiv s).toNat < s.spt.toNat := by
  have hpos : 0 < s.spt.toNat := by
    rw [Nat.pos_iff_ne_zero]
    exact fun e => h (BitVec.eq_of_toNat_eq e)
  have hmax := s.spt.isLt
  unfold nextDiv
  split
  next => exact hpos
  next hlt =>
    rw [BitVec.toNat_add, BitVec.toNat_one (by decide), Nat.mod_eq_of_lt (by omega)]
    omega

/-- Settles O56: only the render engine counts `DIV`, to a value below `SPT`; reset sets it to 0. -/
theorem divStaysBelowSptWhileSptIsLeftAlone : Obligations.DivStaysBelowSptWhileSptIsLeftAlone := by
  intro s t hs hlt h hspt
  rw [hspt]
  rcases step_cases h with rfl | ⟨w, rest, i, _, _, _, _, he⟩ | ⟨w, rest, e, _, _, _, _, rfl⟩ | ⟨_, _, rfl⟩ | ⟨n, _, _, rfl⟩ |
    ⟨_, rfl⟩
  · exact hlt
  · rw [(Effect.of_exec he).div_eq]
    exact hlt
  · rcases unmatched_eq e { dropTurn s with bus := rest } with hu | hu <;> rw [hu] <;> exact hlt
  · rcases engineStep_div (dropTurn s) with hd | hd <;> rw [hd]
    · exact hlt
    · exact nextDiv_lt_spt (s := dropTurn s) hs.sptNonzero
  · rw [deliver_div]
    exact hlt
  · exact Nat.zero_lt_of_lt hlt

/-! ### The ring buffer as a queue -/

/-- `WR` is `OCC` slots after `RD`. -/
theorem wr_eq_rd_add_occ {s : State} (hw : s.wr < s.cap) : s.wr = (s.rd + occ s) % s.cap := by
  have hc : (0 : Int) < s.cap := by exact_mod_cast s.cap_pos
  have hocc : (occ s : Int) = ((s.wr : Int) - s.rd) % s.cap := Int.toNat_of_nonneg (Int.emod_nonneg _ hc.ne')
  zify
  rw [hocc, Int.add_emod_emod, add_sub_cancel, Int.emod_eq_of_lt (by omega) (by omega)]

/-- If `WR` is `n < CAP` slots after `RD`, then `OCC` is `n` (44_ring_buffer.md R190). -/
theorem occ_eq_of_wr_eq {s : State} {n : Nat} (hn : n < s.cap) (h : s.wr = (s.rd + n) % s.cap) : occ s = n := by
  have hmod : ((s.wr : Int) - s.rd) % s.cap = n := by
    rw [h, Int.natCast_emod, Int.emod_sub_emod, Nat.cast_add, add_sub_cancel_left, Int.emod_eq_of_lt (by omega) (by omega)]
  unfold occ
  rw [hmod, Int.toNat_natCast]

/-- No slot of the queue is the one `Push` writes. -/
theorem queue_slot_ne_wr {s : State} {n : Nat} (hn : n < occ s) : (s.rd + n) % s.cap ≠ s.wr := by
  intro h
  have hn' : occ s = n := occ_eq_of_wr_eq (hn.trans (occ_lt_cap s)) h.symm
  omega

@[simp] theorem length_queue (s : State) : (queue s).length = occ s := by
  simp [queue]

/-- An accepted push occupies one slot more. -/
theorem occ_push {s : State} (hw : s.wr < s.cap) (h : free s ≠ 0) (f : Word) : occ (push f s) = occ s + 1 := by
  have hfree := free_add_occ s
  have hwr : (push f s).wr = (s.wr + 1) % s.cap := by rw [push_of_room h]
  refine occ_eq_of_wr_eq (by rw [push_cap]; omega) ?_
  rw [hwr, push_rd, push_cap, ← Nat.add_assoc, ← Nat.mod_add_mod (s.rd + occ s), ← wr_eq_rd_add_occ hw]

/-- An accepted push appends its frame to the queue (44_ring_buffer.md R191). -/
theorem queue_push {s : State} (hm : s.mem.wf) (hw : s.wr < s.cap) (h : free s ≠ 0) (f : Word) :
    queue (push f s) = queue s ++ [f] := by
  have hmem : (push f s).mem = s.mem.write s.wr f := by rw [push_of_room h]
  unfold queue
  rw [occ_push hw h, push_rd, push_cap, hmem, List.range_succ, List.map_append]
  congr 1
  · refine List.map_congr_left fun n hn => ?_
    rw [Memory.read_write hm, if_neg (queue_slot_ne_wr (List.mem_range.mp hn))]
  · rw [List.map_singleton, ← wr_eq_rd_add_occ hw, Memory.read_write hm, if_pos rfl]

/-- The queue depends on the storage, the indices and `K` alone. -/
theorem queue_congr {s t : State} (hm : t.mem = s.mem) (hw : t.wr = s.wr) (hr : t.rd = s.rd) (hk : t.k = s.k) :
    queue t = queue s := by
  unfold queue State.cap
  rw [occ_congr hw hr hk, hm, hr, hk]

/-- A non-empty queue is the frame at `RD` and the queue after its delivery (44_ring_buffer.md R195). -/
theorem queue_eq_cons_deliver {s : State} (hw : s.wr < s.cap) (hr : s.rd < s.cap) (h : occ s ≠ 0) :
    queue s = s.mem.read s.rd :: queue (deliver s) := by
  obtain ⟨m, hm⟩ := Nat.exists_eq_succ_of_ne_zero h
  have hlt := occ_lt_cap s
  have hrd : (deliver s).rd = (s.rd + 1) % s.cap := by rw [deliver_of_queued h]
  have hslot (n : Nat) : (s.rd + (n + 1)) % s.cap = ((s.rd + 1) % s.cap + n) % s.cap := by
    rw [Nat.mod_add_mod, Nat.add_right_comm, Nat.add_assoc]
  have hocc : occ (deliver s) = m := by
    refine occ_eq_of_wr_eq (by rw [deliver_cap]; omega) ?_
    rw [deliver_wr, hrd, deliver_cap, ← hslot, ← Nat.succ_eq_add_one, ← hm]
    exact wr_eq_rd_add_occ hw
  unfold queue
  rw [hm, hocc, hrd, deliver_cap, deliver_mem, List.range_succ_eq_map, List.map_cons, List.map_map, Nat.add_zero, Nat.mod_eq_of_lt hr]
  congr 1
  exact List.map_congr_left fun n _ => congrArg s.mem.read (hslot n)

theorem queue_eq_nil_iff (s : State) : queue s = [] ↔ occ s = 0 := by
  rw [← List.length_eq_zero_iff, length_queue]

/-- Settles O48: an accepted push appends the slot at `WR`, and a delivery takes the slot at `RD` off the front. -/
theorem ringBufferIsABoundedFifo : Obligations.RingBufferIsABoundedFifo := by
  intro s hs
  have hlen : (queue s).length = occ s := length_queue s
  have hfree : free s + occ s = 2 ^ s.k - 1 := free_add_occ s
  refine ⟨by omega, fun d => ⟨push d s, rfl, fun hroom => ?_, fun hfull => ?_⟩, deliver s, rfl, fun hnil => ?_,
    fun f q hcons => ?_⟩
  · have hne : free s ≠ 0 := by omega
    exact ⟨queue_push hs.memWf hs.wrInside hne d, by rw [push_of_room hne]⟩
  · rw [push_of_full (by omega)]
    exact ⟨queue_congr rfl rfl rfl rfl, rfl⟩
  · rw [deliver_of_empty ((queue_eq_nil_iff s).mp hnil)]
    exact ⟨(queue_congr rfl rfl rfl rfl).trans hnil, rfl, rfl⟩
  · have hne : occ s ≠ 0 := by
      rw [← hlen, hcons]
      exact Nat.succ_ne_zero _
    rw [queue_eq_cons_deliver hs.wrInside hs.rdInside hne] at hcons
    obtain ⟨rfl, rfl⟩ := List.cons.inj hcons
    rw [deliver_of_queued hne]
    exact ⟨rfl, rfl, rfl, rfl⟩

/-! ### The canonical storage -/

theorem Memory.read_cons_self (a : Nat) (v : Word) (m : Memory) : Memory.read ((a, v) :: m) a = v := if_pos rfl

theorem Memory.read_cons_of_ne {a b : Nat} (h : a ≠ b) (v : Word) (m : Memory) :
    Memory.read ((a, v) :: m) b = m.read b := if_neg h

/-- A canonical storage with a first entry: what holds of the entry and of the rest. -/
theorem Memory.wf_cons_iff (a : Nat) (v : Word) (m : Memory) :
    Memory.wf ((a, v) :: m) ↔ v ≠ 0#32 ∧ (∀ x ∈ m, a < x.1) ∧ m.wf := by
  simp only [Memory.wf, List.pairwise_cons, List.forall_mem_cons]
  tauto

/-- No slot before the first entry of a canonical storage reads a value other than 0. -/
theorem Memory.fst_le_of_read_ne_zero {a b : Nat} {v : Word} {m : Memory} (hm : Memory.wf ((a, v) :: m))
    (h : Memory.read ((a, v) :: m) b ≠ 0#32) : a ≤ b := by
  obtain ⟨_, habove, _⟩ := (Memory.wf_cons_iff a v m).mp hm
  by_contra hlt
  refine h (Memory.read_of_lt (List.forall_mem_cons.mpr ⟨by omega, fun x hx => ?_⟩))
  have := habove x hx
  omega

/-- The first entry of a canonical storage is a slot that reads a value other than 0. -/
theorem Memory.exists_read_ne_zero {x : Nat × Word} {m : Memory} (hm : Memory.wf (x :: m)) :
    ∃ a, Memory.read (x :: m) a ≠ 0#32 := by
  obtain ⟨a, v⟩ := x
  exact ⟨a, by rw [Memory.read_cons_self]; exact ((Memory.wf_cons_iff a v m).mp hm).1⟩

/-- The rest of a canonical storage reads 0 at the first entry's slot and elsewhere what the whole reads. -/
theorem Memory.read_tail {a : Nat} {v : Word} {m : Memory} (hm : Memory.wf ((a, v) :: m)) (b : Nat) :
    m.read b = if b = a then 0#32 else Memory.read ((a, v) :: m) b := by
  split
  next h => exact h ▸ Memory.read_of_lt ((Memory.wf_cons_iff a v m).mp hm).2.1
  next h => exact (Memory.read_cons_of_ne (Ne.symm h) v m).symm

/-- Two canonical storages with equal readings are equal: their first entries are at the least slot that does not read 0. -/
theorem Memory.eq_of_read_eq (m n : Memory) (hm : m.wf) (hn : n.wf) (h : ∀ a, m.read a = n.read a) : m = n := by
  induction m generalizing n with
  | nil =>
    cases n with
    | nil => rfl
    | cons y q =>
      obtain ⟨a, ha⟩ := Memory.exists_read_ne_zero hn
      exact absurd (h a).symm ha
  | cons x r ih =>
    cases n with
    | nil =>
      obtain ⟨a, ha⟩ := Memory.exists_read_ne_zero hm
      exact absurd (h a) ha
    | cons y q =>
      obtain ⟨a, v⟩ := x
      obtain ⟨b, w⟩ := y
      obtain ⟨hv, _, hr⟩ := (Memory.wf_cons_iff a v r).mp hm
      obtain ⟨hw, _, hq⟩ := (Memory.wf_cons_iff b w q).mp hn
      have hba : b ≤ a := Memory.fst_le_of_read_ne_zero hn (by rw [← h, Memory.read_cons_self]; exact hv)
      have hab : a ≤ b := Memory.fst_le_of_read_ne_zero hm (by rw [h, Memory.read_cons_self]; exact hw)
      obtain rfl : a = b := le_antisymm hab hba
      have hvw : v = w := by
        have hread := h a
        rwa [Memory.read_cons_self, Memory.read_cons_self] at hread
      have htail : r = q := ih q hr hq fun c => by rw [Memory.read_tail hm, Memory.read_tail hn, h]
      rw [hvw, htail]

/-- Settles O58, by induction on one storage against the other. -/
theorem canonicalStorageIsDeterminedByItsReadings : Obligations.CanonicalStorageIsDeterminedByItsReadings :=
  Memory.eq_of_read_eq

/-! ### The reset state -/

/-- A reset state has the values of the reset table (10_state.md R56). -/
theorem atReset_resetOf (c : Config) : AtReset (State.resetOf c) := by
  refine ⟨rfl, rfl, rfl, rfl, rfl, rfl, rfl, rfl, fun _ => rfl, rfl, rfl, rfl, fun b hb => ?_⟩
  obtain rfl : b = Bank.reset := List.eq_of_mem_replicate hb
  exact ⟨rfl, rfl, rfl, rfl, rfl, rfl, rfl, rfl, rfl⟩

/-- The step of the reset event (70_reset_and_hazards.md R280). -/
theorem step_of_reset {s : State} (h : nextTurn s = some .reset) :
    step s = .next { State.resetOf s.config with bus := s.bus, pops := s.pops, sched := s.sched.tail } := by
  unfold step
  rw [h]
  rfl

/-- Settles O13: the requests and the schedule, which the reset turn keeps, are no part of the table. -/
theorem resetGivesTheTableOfResetValues : Obligations.ResetGivesTheTableOfResetValues :=
  ⟨fun c => ⟨atReset_resetOf c, State.config_resetOf c⟩,
    fun s h => ⟨_, step_of_reset h, atReset_resetOf s.config, State.config_resetOf s.config⟩⟩

end Sys2Proof.Machine

/-! SUPPORT. The memory family (spec/20_memory.md): reads and writes at the decoder and at the port, what repeats to nothing, and whose
step comes next while a burst is pending. -/

namespace Sys2Proof

/-! ### The decoder: encoded operations, and the direction of an access -/

/-- The decoder gives an encoded operation back (30_encoding.md R80 to R85). -/
theorem decode_encode (i : Instr) : decode (encode i) = .ok i := by
  cases i with
  | wrCtrl d | wrStatus d | wrSpt d | wrRender d | wrRbPush d => exact decode_busWord true _ d
  | rdCtrl | rdStatus | rdSpt | rdDiv | rdTickcnt | rdRbCap | rdRbWr | rdRbRd | rdRbOcc | rdRbFree =>
    exact decode_busWord false _ 0#32
  | wrChEn c d | wrChWave c d | wrChVol c d | wrChAtk c d | wrChRls c d | wrChInc c d | wrChNote c d | wrChKeyoff c d
  | wrChReset c d =>
    exact (decode_busWord true _ d).trans (decodeAccess_chanAddr true c _ d)
  | rdChEn c | rdChWave c | rdChVol c | rdChAtk c | rdChRls c | rdChInc c | rdChAcc c | rdChLevel c | rdChStat c =>
    exact (decode_busWord false _ 0#32).trans (decodeAccess_chanAddr false c _ 0#32)
  | pop => rfl

/-- The operations of format R (30_encoding.md R80). -/
def Instr.isRead : Instr → Bool
  | .rdCtrl | .rdStatus | .rdSpt | .rdDiv | .rdTickcnt | .rdRbCap | .rdRbWr | .rdRbRd | .rdRbOcc | .rdRbFree
  | .rdChEn _ | .rdChWave _ | .rdChVol _ | .rdChAtk _ | .rdChRls _ | .rdChInc _ | .rdChAcc _ | .rdChLevel _ | .rdChStat _ => true
  | _ => false

/-- The rejections of a read, against those of a write (30_encoding.md R88 to R90). -/
def Reject.isRead : Reject → Bool
  | .reservedRead | .writeOnlyRead => true
  | .reservedWrite | .readOnlyWrite => false

/-- Whether what the decoder answers, an operation or a rejection, is that of a read. -/
def decodedRead : Except Reject Instr → Bool
  | .ok i => i.isRead
  | .error e => e.isRead

theorem decodedRead_decodeGlobal (rw : Bool) (a : Nat) (d : Word) : decodedRead (decodeGlobal rw a d) = !rw := by
  unfold decodeGlobal
  split <;> cases rw <;> rfl

theorem decodedRead_decodeChannel (rw : Bool) (c : Chan) (o : Nat) (d : Word) : decodedRead (decodeChannel rw c o d) = !rw := by
  unfold decodeChannel
  split <;> cases rw <;> rfl

/-- The bit `rw` of an access alone decides whether the decoder answers with a read, whatever the region (30_encoding.md R81, R82). -/
theorem decodedRead_decodeAccess (rw : Bool) (a : Addr) (d : Word) : decodedRead (decodeAccess rw a d) = !rw := by
  unfold decodeAccess
  split
  · exact decodedRead_decodeChannel ..
  · exact decodedRead_decodeGlobal ..

theorem decodedRead_decode (t : BusWord) : decodedRead (decode (.bus t)) = !busRw t := decodedRead_decodeAccess ..

theorem isRead_of_decode_ok {t : BusWord} {i : Instr} (h : decode (.bus t) = .ok i) : i.isRead = !busRw t :=
  (congrArg decodedRead h).symm.trans (decodedRead_decode t)

theorem isRead_of_decode_error {t : BusWord} {e : Reject} (h : decode (.bus t) = .error e) : e.isRead = !busRw t :=
  (congrArg decodedRead h).symm.trans (decodedRead_decode t)

end Sys2Proof

namespace Sys2Proof.Machine

/-! ### A transaction at its port -/

theorem perform_of_ok {r : Request} {i : Instr} (h : decode r = .ok i) (s : State) : perform r s = exec i s := by
  simp only [perform, h]

theorem perform_of_error {r : Request} {e : Reject} (h : decode r = .error e) (s : State) :
    perform r s = .next (unmatched e s) := by
  simp only [perform, h]

/-- A rejected read is answered 0 (30_encoding.md R88, R90). -/
theorem unmatched_of_isRead {e : Reject} (h : e.isRead = true) (s : State) : unmatched e s = answer 0#32 s := by
  cases e with
  | reservedRead | writeOnlyRead => rfl
  | reservedWrite | readOnlyWrite => exact absurd h Bool.false_ne_true

/-- A rejected write does nothing (30_encoding.md R88, R89). -/
theorem unmatched_of_isRead_eq_false {e : Reject} (h : e.isRead = false) (s : State) : unmatched e s = s := by
  cases e with
  | reservedRead | writeOnlyRead => exact absurd h.symm Bool.false_ne_true
  | reservedWrite | readOnlyWrite => rfl

/-- A read operation answers, and that is all it does (20_memory.md R64). -/
theorem exec_of_isRead {i : Instr} (h : i.isRead = true) (s : State) : ∃ v, exec i s = .next (answer v s) := by
  cases i with
  | rdCtrl | rdStatus | rdSpt | rdDiv | rdTickcnt | rdRbCap | rdRbWr | rdRbRd | rdRbOcc | rdRbFree
  | rdChEn c | rdChWave c | rdChVol c | rdChAtk c | rdChRls c | rdChInc c | rdChAcc c | rdChLevel c | rdChStat c =>
    exact ⟨_, rfl⟩
  | wrCtrl | wrStatus | wrSpt | wrRender | wrRbPush | wrChEn | wrChWave | wrChVol | wrChAtk | wrChRls | wrChInc | wrChNote
  | wrChKeyoff | wrChReset | pop =>
    exact absurd h Bool.false_ne_true

/-- A read transaction at any address answers, and that is all it does (20_memory.md R64; 30_encoding.md R88, R90). -/
theorem perform_of_read {w : BusWord} (hw : busRw w = false) (s : State) : ∃ v, perform (.bus w) s = .next (answer v s) := by
  cases hd : decode (.bus w) with
  | ok i =>
    rw [perform_of_ok hd]
    exact exec_of_isRead (by rw [isRead_of_decode_ok hd, hw]; rfl) s
  | error e =>
    rw [perform_of_error hd, unmatched_of_isRead (by rw [isRead_of_decode_error hd, hw]; rfl)]
    exact ⟨_, rfl⟩

/-- Settles O32: whatever the address decodes to, a read only answers. -/
theorem noReadHasASideEffect : Obligations.NoReadHasASideEffect := by
  intro w s t hw h
  obtain ⟨v, hv⟩ := perform_of_read hw s
  obtain rfl : answer v s = t := Host.Outcome.next.inj (hv.symm.trans h)
  rfl

/-! ### What repeats to nothing -/

/-- An operation that makes an update which is its own repetition is idempotent. -/
theorem idempotent_of_update {i : Instr} {f : State → State} (hexec : ∀ s, exec i s = .next (f s)) (hf : ∀ s, f (f s) = f s) :
    Idempotent i := by
  intro s t h
  obtain rfl : f s = t := Host.Outcome.next.inj ((hexec s).symm.trans h)
  rw [hexec, hf]

theorem clearFlags_clearFlags (d : Word) (s : State) : clearFlags d (clearFlags d s) = clearFlags d s := by
  simp [clearFlags]

theorem updateBank_updateBank (c : Chan) (f g : Bank → Bank) (s : State) :
    updateBank c g (updateBank c f s) = updateBank c (g ∘ f) s := by
  simp only [updateBank, List.modify_modify_eq]

/-- A write to a bank whose field update is its own repetition is idempotent, whether or not the channel exists. -/
theorem idempotent_of_updateBank {i : Instr} {c : Chan} {f : Bank → Bank} (hexec : ∀ s, exec i s = .next (updateBank c f s))
    (hf : ∀ b, f (f b) = f b) : Idempotent i :=
  idempotent_of_update hexec fun s => by rw [updateBank_updateBank, show f ∘ f = f from funext hf]

/-- `WR.SPT` repeats to nothing: its data alone selects the branch (40_global_control.md R104). -/
theorem idempotent_wrSpt (d : Word) : Idempotent (.wrSpt d) := by
  by_cases h : field16 d = 0#16
  · exact idempotent_of_update (f := setCfgerr) (fun s => congrArg Host.Outcome.next (if_pos h)) fun _ => rfl
  · exact idempotent_of_update (f := fun s => { s with spt := field16 d }) (fun s => congrArg Host.Outcome.next (if_neg h))
      fun _ => rfl

/-- Settles O33: each of these writes makes one update, and that update is its own repetition. -/
theorem plainWritesAndIdempotentStrobesRepeatToNothing : Obligations.PlainWritesAndIdempotentStrobesRepeatToNothing := by
  refine ⟨fun d => ⟨?ctrl, ?status, idempotent_wrSpt d⟩, fun c d => ?_⟩
  case ctrl => exact idempotent_of_update (f := fun s => { s with pause := fieldBit d 0 }) (fun _ => rfl) fun _ => rfl
  case status => exact idempotent_of_update (fun _ => rfl) (clearFlags_clearFlags d)
  refine ⟨?_, ?_, ?_, ?_, ?_, ?_, ?_, ?_, ?_⟩ <;> exact idempotent_of_updateBank (fun _ => rfl) fun _ => rfl

/-! ### The step of the agent whose turn it is -/

theorem step_of_nextTurn {s : State} {u : Turn} (h : nextTurn s = some u) : step s = takeTurn (some u) (dropTurn s) := by
  rw [step, h]

theorem nextTurn_of_sched {s : State} {u : Turn} {rest : List Turn} (h : s.sched = u :: rest) : nextTurn s = some u := by
  simp only [nextTurn, h]

theorem hostTurn_of_held {s : State} (h : s.rcnt ≠ 0#16) : hostTurn s = .next s := if_neg h

theorem hostTurn_of_waiting {s : State} {t : BusWord} {rest : List BusWord} (h : s.rcnt = 0#16) (hb : s.bus = t :: rest) :
    hostTurn s = perform (.bus t) { s with bus := rest } := by
  simp only [hostTurn, h, hb, if_true]

theorem engineTurn_of_idle {s : State} (h : s.rcnt = 0#16) : engineTurn s = .next s := if_pos h

theorem engineTurn_of_pending {s : State} (h : s.rcnt ≠ 0#16) : engineTurn s = .next (engineStep s) := if_neg h

theorem consumerTurn_of_waiting {s : State} {n : Nat} (h : s.pops = n + 1) :
    consumerTurn s = exec .pop { s with pops := n } := by
  simp only [consumerTurn, h]
  exact perform_of_ok rfl _

/-- The host's step, where the port is not held and a transaction waits (20_memory.md R70, R72). -/
theorem step_of_host {s : State} {t : BusWord} {rest : List BusWord} (hn : nextTurn s = some .host) (hr : s.rcnt = 0#16)
    (hb : s.bus = t :: rest) : step s = perform (.bus t) { s with bus := rest, sched := s.sched.tail } :=
  (step_of_nextTurn hn).trans (hostTurn_of_waiting (s := dropTurn s) hr hb)

/-- The consumer's step, where a pop is requested (20_memory.md R70). -/
theorem step_of_consumer {s : State} {n : Nat} (hn : nextTurn s = some .consumer) (hp : s.pops = n + 1) :
    step s = exec .pop { s with pops := n, sched := s.sched.tail } :=
  (step_of_nextTurn hn).trans (consumerTurn_of_waiting (s := dropTurn s) hp)

/-- The render engine's step, where a burst is pending (43_mixer.md R177). -/
theorem step_of_engine {s : State} (hn : nextTurn s = some .engine) (hr : s.rcnt ≠ 0#16) :
    step s = .next (engineStep { s with sched := s.sched.tail }) :=
  (step_of_nextTurn hn).trans (engineTurn_of_pending (s := dropTurn s) hr)

/-- Settles O6: the step of each agent, with the outcome of the word at the host's port. -/
theorem stepRunsTheDecodedOperation : Obligations.StepRunsTheDecodedOperation := by
  refine ⟨fun s t rest i hn hr hb hd => ?_, fun s t rest e hn hr hb hd => ?_, fun s n => step_of_consumer, fun s => step_of_engine⟩
  · rw [step_of_host hn hr hb, perform_of_ok hd]
  · rw [step_of_host hn hr hb, perform_of_error hd]
    have hrw := isRead_of_decode_error hd
    refine ⟨rfl, fun hwrite => ?_, fun hread => ?_⟩
    · rw [unmatched_of_isRead_eq_false (by rw [hrw, hwrite]; rfl)]
    · rw [unmatched_of_isRead (by rw [hrw, hread]; rfl)]
      rfl

/-- Settles O8: each of the two agents has a step in one of the cases `RCNT = 0` and `RCNT ≠ 0` only. -/
theorem hostIsHeldWhileABurstIsPending : Obligations.HostIsHeldWhileABurstIsPending :=
  ⟨fun s hr hn => (step_of_nextTurn hn).trans (hostTurn_of_held (s := dropTurn s) hr),
    fun s hr hn => (step_of_nextTurn hn).trans (engineTurn_of_idle (s := dropTurn s) hr)⟩

/-! ### A placed operation -/

/-- The 45 bits of a transaction word in six bytes are that transaction (log 9). -/
theorem withFetchWord_bus (s : State) (t : BusWord) : s.withFetchWord 48 t.toNat = place (.bus t) s := by
  have h : Request.ofBits 48 t.toNat = some (.bus t) := by simp [Request.ofBits]
  simp only [State.withFetchWord, h]

/-- A placed transaction is the very next step, at a port that is not held (log 5). -/
theorem step_place_bus (t : BusWord) (s : State) : step (place (.bus t) s) = perform (.bus t) { s with rcnt := 0#16 } :=
  step_of_host (s := place (.bus t) s) rfl rfl rfl

/-- A placed pop request is the very next step (log 5). -/
theorem step_place_pop (s : State) : step (place .pop s) = exec .pop s :=
  step_of_consumer (s := place .pop s) rfl rfl

/-- Settles O7: the placed word is the next step, and the decoder gives the encoded operation back. -/
theorem placedOperationRunsNext : Obligations.PlacedOperationRunsNext := by
  refine ⟨fun s i t ht => ?_, step_place_pop⟩
  have hd : decode (.bus t) = .ok i := ht ▸ decode_encode i
  rw [withFetchWord_bus, step_place_bus, perform_of_ok hd]

/-! ### The hold and the burst -/

@[simp] theorem engineStep_rcnt (s : State) : (engineStep s).rcnt = s.rcnt - 1#16 := by rw [engineStep_eq]
@[simp] theorem engineStep_bus (s : State) : (engineStep s).bus = s.bus := by rw [engineStep_frame]
@[simp] theorem engineStep_sched (s : State) : (engineStep s).sched = s.sched := by rw [engineStep_frame]
@[simp] theorem deliver_rcnt (s : State) : (deliver s).rcnt = s.rcnt := by rw [deliver_eq]
@[simp] theorem deliver_bus (s : State) : (deliver s).bus = s.bus := by rw [deliver_eq]
@[simp] theorem deliver_sched (s : State) : (deliver s).sched = s.sched := by rw [deliver_eq]

/-- A turn of the render engine counts `RCNT` down by 1, to 0 at the least (43_mixer.md R177). -/
theorem engineTurn_counts (s : State) :
    ∃ t, engineTurn s = .next t ∧ t.rcnt.toNat = s.rcnt.toNat - 1 ∧ t.bus = s.bus ∧ t.sched = s.sched := by
  rcases engineTurn_cases s with ⟨hidle, e⟩ | ⟨hpending, e⟩
  · exact ⟨s, e, by rw [hidle]; rfl, rfl, rfl⟩
  · refine ⟨engineStep s, e, ?_, engineStep_bus s, engineStep_sched s⟩
    rw [engineStep_rcnt]
    bv_omega

/-- A turn of the consumer leaves the burst, the host's transactions and the schedule alone (20_memory.md R75). -/
theorem consumerTurn_keeps (s : State) :
    ∃ t, consumerTurn s = .next t ∧ t.rcnt = s.rcnt ∧ t.bus = s.bus ∧ t.sched = s.sched := by
  rcases consumerTurn_cases s with ⟨_, e⟩ | ⟨n, _, e⟩
  · exact ⟨s, e, rfl, rfl, rfl⟩
  · exact ⟨_, e, deliver_rcnt _, deliver_bus _, deliver_sched _⟩

/-- A step on a turn of the render engine or of the consumer counts `RCNT` down by the engine's turns in it. -/
theorem step_of_engine_or_consumer {s : State} {u : Turn} {rest : List Turn} (hs : s.sched = u :: rest)
    (hu : u = .engine ∨ u = .consumer) :
    ∃ t, step s = .next t ∧ t.rcnt.toNat = s.rcnt.toNat - [u].count .engine ∧ t.bus = s.bus ∧ t.sched = rest := by
  have hstep := step_of_nextTurn (nextTurn_of_sched hs)
  have hrest : (dropTurn s).sched = rest := congrArg List.tail hs
  rcases hu with rfl | rfl
  · obtain ⟨t, ht, hrcnt, hbus, hsched⟩ := engineTurn_counts (dropTurn s)
    exact ⟨t, hstep.trans ht, hrcnt, hbus, hsched.trans hrest⟩
  · obtain ⟨t, ht, hrcnt, hbus, hsched⟩ := consumerTurn_keeps (dropTurn s)
    exact ⟨t, hstep.trans ht, congrArg BitVec.toNat hrcnt, hbus, hsched.trans hrest⟩

/-- Settles O9, by induction on the turns taken. -/
theorem holdEndsAfterTheBurstWhateverTheConsumerDoes : Obligations.HoldEndsAfterTheBurstWhateverTheConsumerDoes := by
  intro s l rest hs hl
  induction l generalizing s with
  | nil => exact ⟨s, rfl, rfl, rfl, hs⟩
  | cons u l ih =>
    obtain ⟨hu, hl⟩ := List.forall_mem_cons.mp hl
    obtain ⟨t, ht, hrcnt, hbus, hsched⟩ := step_of_engine_or_consumer hs hu
    obtain ⟨v, hv, hvrcnt, hvbus, hvsched⟩ := ih t hsched hl
    refine ⟨v, (runSteps_succ l.length s t ht).trans hv, ?_, hvbus.trans hbus, hvsched⟩
    rw [hvrcnt, hrcnt, Nat.sub_sub, ← List.count_append, List.singleton_append]

/-- Settles O59: the model runs both schedules, and the values are those of the states it reaches. -/
theorem bothInterleavingsOfABurstAreAdmitted : Obligations.BothInterleavingsOfABurstAreAdmitted :=
  ⟨⟨_, rfl, rfl, rfl, rfl, rfl⟩, ⟨_, rfl, rfl, rfl, rfl, rfl, rfl, rfl, rfl⟩⟩

end Sys2Proof.Machine

/-! SUPPORT. The encoding family (spec/30_encoding.md): the decoder and the encoder as inverses, the decoder against the opcode table,
the outcome of a word that matches no row and of an access to an absent channel, and the pseudo-operations. -/

namespace Sys2Proof

/-! ### The decoder and the encoder -/

/-- Settles O1: the round trip of every constructor. -/
theorem decodeUndoesEncode : Obligations.DecodeUndoesEncode := decode_encode

/-- Settles O3: twelve fixed words, which the decoder evaluates. -/
theorem wordsOfTheSpecDecode : Obligations.WordsOfTheSpecDecode := by
  unfold Obligations.WordsOfTheSpecDecode
  decide

/-- A read is decoded without a look at the data, in both regions (30_encoding.md R81). -/
theorem decodeAccess_read (a : Addr) (d e : Word) : decodeAccess false a d = decodeAccess false a e := by
  have hglobal : decodeGlobal false a.toNat d = decodeGlobal false a.toNat e := rfl
  have hchannel : decodeChannel false (addrChan a) (addrOff a).toNat d = decodeChannel false (addrChan a) (addrOff a).toNat e := rfl
  unfold decodeAccess
  rw [hglobal, hchannel]

/-- Settles O4: two reads of one address differ in their data only. -/
theorem readDataIsIgnoredByTheDecoder : Obligations.ReadDataIsIgnoredByTheDecoder := by
  intro t u ht hu ha
  simp only [decode, ht, hu, ha]
  exact decodeAccess_read ..

theorem encode_of_decodeGlobal {rw : Bool} {a : Nat} {d : Word} {i : Instr} (h : decodeGlobal rw a d = .ok i) :
    encode i = .bus (busWord rw (BitVec.ofNat 12 a) (if rw then d else 0#32)) := by
  unfold decodeGlobal at h
  split at h <;> cases rw <;> cases h <;> rfl

theorem encode_of_decodeChannel {rw : Bool} {c : Chan} {o : Nat} {d : Word} {i : Instr} (h : decodeChannel rw c o d = .ok i) :
    encode i = .bus (busWord rw (chanAddr c (BitVec.ofNat 4 o)) (if rw then d else 0#32)) := by
  unfold decodeChannel at h
  split at h <;> cases rw <;> cases h <;> rfl

/-- Encoding a decoded operation gives its transaction back, a read's ignored data as 0 (30_encoding.md R80, R81). -/
theorem encode_of_decodeAccess {rw : Bool} {a : Addr} {d : Word} {i : Instr} (h : decodeAccess rw a d = .ok i) :
    encode i = .bus (busWord rw a (if rw then d else 0#32)) := by
  unfold decodeAccess at h
  split at h
  next hregion =>
    have henc := encode_of_decodeChannel h
    rwa [BitVec.ofNat_toNat, BitVec.setWidth_eq, chanAddr_fields a hregion] at henc
  next =>
    have henc := encode_of_decodeGlobal h
    rwa [BitVec.ofNat_toNat, BitVec.setWidth_eq] at henc

/-! ### The opcode table -/

/-- The name the table has for what the decoder answers, none for a rejection. -/
def decodedName : Except Reject Instr → Option String
  | .ok i => some i.mnemonic
  | .error _ => none

theorem decodedName_eq_some_iff {r : Except Reject Instr} {m : String} :
    decodedName r = some m ↔ ∃ i, r = .ok i ∧ i.mnemonic = m := by
  cases r with
  | ok i => simp [decodedName]
  | error e => simp [decodedName]

/-- Which operation of the global region is decoded does not depend on the data (30_encoding.md R81, R82). -/
theorem decodedName_decodeGlobal (rw : Bool) (a : Nat) (d e : Word) :
    decodedName (decodeGlobal rw a d) = decodedName (decodeGlobal rw a e) := by
  unfold decodeGlobal
  split <;> cases rw <;> rfl

/-- Which operation of the channel region is decoded does not depend on the channel and the data (30_encoding.md R83). -/
theorem decodedName_decodeChannel (rw : Bool) (b c : Chan) (o : Nat) (d e : Word) :
    decodedName (decodeChannel rw b o d) = decodedName (decodeChannel rw c o e) := by
  unfold decodeChannel
  split <;> cases rw <;> rfl

/-- Every row's own pattern, decoded, is the row's operation. -/
theorem decodedName_pattern : ∀ row ∈ opcodeTable, decodedName (decode (.bus row.pattern)) = some row.mnemonic := by decide

/-- A row has the mask of the global region, or that of the channel region and a pattern in it (30_encoding.md R82, R83, R96). -/
theorem region_of_mem_opcodeTable : ∀ row ∈ opcodeTable,
    row.mask = globalMask ∨ row.mask = channelMask ∧ (busAddr row.pattern).getLsbD 11 = true := by decide

theorem nodup_mnemonics : (opcodeTable.map TableRow.mnemonic).Nodup := by decide

theorem busData_mask : ∀ row ∈ opcodeTable, busData row.mask = 0#32 := by decide

/-- A row's mask does not select data bits (30_encoding.md R81). -/
theorem busWord_and_mask {row : TableRow} (hrow : row ∈ opcodeTable) (rw : Bool) (a : Addr) (d e : Word) :
    busWord rw a d &&& row.mask = busWord rw a e &&& row.mask := by
  rw [← busWord_fields row.mask, busData_mask row hrow, busWord_and, busWord_and, BitVec.and_zero, BitVec.and_zero]

theorem decodedName_globalMask (t : BusWord) : decodedName (decode (.bus (t &&& globalMask))) = decodedName (decode (.bus t)) := by
  rw [← busWord_fields t, globalMask_and, decode_busWord, decode_busWord]
  unfold decodeAccess
  split
  · exact decodedName_decodeChannel ..
  · exact decodedName_decodeGlobal ..

/-- The masks of the channel region keep the bit that selects the region. -/
theorem region_channelMask (t : BusWord) : (busAddr (t &&& channelMask)).getLsbD 11 = (busAddr t).getLsbD 11 := by
  have h : channelMask = busWord true (chanAddr 0#7 0xF#4) 0#32 := by decide
  rw [← busWord_fields t, h, busWord_and, busAddr_busWord, busAddr_busWord, BitVec.getLsbD_and, chanAddr_region, Bool.and_true]

theorem decodedName_channelMask {t : BusWord} (h : (busAddr t).getLsbD 11 = true) :
    decodedName (decode (.bus (t &&& channelMask))) = decodedName (decode (.bus t)) := by
  rw [← busWord_fields t, ← chanAddr_fields (busAddr t) h, channelMask_and, decode_busWord, decode_busWord, decodeAccess_chanAddr,
    decodeAccess_chanAddr]
  exact decodedName_decodeChannel ..

/-- A word that matches a row decodes to what the row's pattern decodes to, up to the operands. -/
theorem decodedName_of_match {t : BusWord} {row : TableRow} (hrow : row ∈ opcodeTable) (h : t &&& row.mask = row.pattern) :
    decodedName (decode (.bus t)) = some row.mnemonic := by
  rw [← decodedName_pattern row hrow, ← h]
  rcases region_of_mem_opcodeTable row hrow with hmask | ⟨hmask, hregion⟩
  · rw [hmask, decodedName_globalMask]
  · rw [← h, hmask, region_channelMask] at hregion
    rw [hmask, decodedName_channelMask hregion]

/-- Every operation's encoding matches the row of its name. -/
theorem matches_encode : ∀ i : Instr, Laws.RowMatch.Matches (encode i) i.mnemonic
  | .wrCtrl d => Laws.RowMatch.wrCtrl d
  | .rdCtrl => Laws.RowMatch.rdCtrl
  | .wrStatus d => Laws.RowMatch.wrStatus d
  | .rdStatus => Laws.RowMatch.rdStatus
  | .wrSpt d => Laws.RowMatch.wrSpt d
  | .rdSpt => Laws.RowMatch.rdSpt
  | .wrRender d => Laws.RowMatch.wrRender d
  | .rdDiv => Laws.RowMatch.rdDiv
  | .rdTickcnt => Laws.RowMatch.rdTickcnt
  | .rdRbCap => Laws.RowMatch.rdRbCap
  | .rdRbWr => Laws.RowMatch.rdRbWr
  | .rdRbRd => Laws.RowMatch.rdRbRd
  | .rdRbOcc => Laws.RowMatch.rdRbOcc
  | .rdRbFree => Laws.RowMatch.rdRbFree
  | .wrRbPush d => Laws.RowMatch.wrRbPush d
  | .wrChEn c d => Laws.RowMatch.wrChEn c d
  | .rdChEn c => Laws.RowMatch.rdChEn c
  | .wrChWave c d => Laws.RowMatch.wrChWave c d
  | .rdChWave c => Laws.RowMatch.rdChWave c
  | .wrChVol c d => Laws.RowMatch.wrChVol c d
  | .rdChVol c => Laws.RowMatch.rdChVol c
  | .wrChAtk c d => Laws.RowMatch.wrChAtk c d
  | .rdChAtk c => Laws.RowMatch.rdChAtk c
  | .wrChRls c d => Laws.RowMatch.wrChRls c d
  | .rdChRls c => Laws.RowMatch.rdChRls c
  | .wrChInc c d => Laws.RowMatch.wrChInc c d
  | .rdChInc c => Laws.RowMatch.rdChInc c
  | .wrChNote c d => Laws.RowMatch.wrChNote c d
  | .wrChKeyoff c d => Laws.RowMatch.wrChKeyoff c d
  | .wrChReset c d => Laws.RowMatch.wrChReset c d
  | .rdChAcc c => Laws.RowMatch.rdChAcc c
  | .rdChLevel c => Laws.RowMatch.rdChLevel c
  | .rdChStat c => Laws.RowMatch.rdChStat c
  | .pop => Laws.RowMatch.pop

/-- A word that decodes to the operation of a row matches the row: so does the operation's encoding, which differs from the word in
bits that no row selects. -/
theorem match_of_decode {t : BusWord} {i : Instr} (hd : decode (.bus t) = .ok i) {row : TableRow} (hrow : row ∈ opcodeTable)
    (hname : i.mnemonic = row.mnemonic) : t &&& row.mask = row.pattern := by
  have hmatch := matches_encode i
  rw [encode_of_decodeAccess hd] at hmatch
  obtain ⟨row', hrow', hname', h⟩ := hmatch
  obtain rfl : row' = row := List.inj_on_of_nodup_map nodup_mnemonics hrow' hrow (hname'.trans hname)
  rw [← h, ← busWord_fields t]
  simp only [busRw_busWord, busAddr_busWord]
  exact busWord_and_mask hrow ..

/-- Settles O2: one lemma for each direction. -/
theorem decoderAgreesWithTheOpcodeTable : Obligations.DecoderAgreesWithTheOpcodeTable := by
  intro t row hrow
  refine ⟨fun h => decodedName_eq_some_iff.mp (decodedName_of_match hrow h), ?_⟩
  rintro ⟨i, hd, hname⟩
  exact match_of_decode hd hrow hname

end Sys2Proof

namespace Sys2Proof.Machine

/-! ### Words that match no row, and absent channels -/

/-- A rejected word is answered 0 if it is a read, and does nothing if it is a write (30_encoding.md R88 to R90). -/
theorem perform_of_rejected {t : BusWord} {e : Reject} (h : decode (.bus t) = .error e) (s : State) :
    perform (.bus t) s = .next (if busRw t = true then s else answer 0#32 s) := by
  have hread := isRead_of_decode_error h
  rw [perform_of_error h]
  cases hw : busRw t with
  | true => rw [unmatched_of_isRead_eq_false (by rw [hread, hw]; rfl), if_pos rfl]
  | false => rw [unmatched_of_isRead (by rw [hread, hw]; rfl), if_neg Bool.false_ne_true]

theorem reserved_eq_error (rw : Bool) : ∃ e, reserved rw = .error e := by
  cases rw with
  | true => exact ⟨.reservedWrite, rfl⟩
  | false => exact ⟨.reservedRead, rfl⟩

theorem decodeGlobal_reserved {a : Nat} (h : (0x006 ≤ a ∧ a ≤ 0x00F) ∨ 0x016 ≤ a) (rw : Bool) (d : Word) :
    decodeGlobal rw a d = reserved rw := by
  unfold decodeGlobal
  split
  case h_13 => rfl
  all_goals omega

theorem decodeChannel_reserved {o : Nat} (h : 0xC ≤ o) (rw : Bool) (c : Chan) (d : Word) :
    decodeChannel rw c o d = reserved rw := by
  unfold decodeChannel
  split
  case h_13 => rfl
  all_goals omega

/-- An address below `0x800` is of the global region (30_encoding.md R82). -/
theorem decode_global {a : Nat} (h : a ≤ 0x7FF) (rw : Bool) (d : Word) :
    decode (.bus (busWord rw (BitVec.ofNat 12 a) d)) = decodeGlobal rw a d := by
  have hregion : (BitVec.ofNat 12 a).getLsbD 11 = false := by
    rw [BitVec.getLsbD_ofNat, Nat.testBit_lt_two_pow (by omega), Bool.and_false]
  have hnat : (BitVec.ofNat 12 a).toNat = a := by
    rw [BitVec.toNat_ofNat, Nat.mod_eq_of_lt (by omega)]
  rw [decode_busWord, decodeAccess_global rw _ d hregion, hnat]

theorem perform_busWord_of_rejected {rw : Bool} {a : Addr} {d : Word} {e : Reject} (h : decodeAccess rw a d = .error e) (s : State) :
    perform (.bus (busWord rw a d)) s = .next (if rw = true then s else { s with rdata := 0#32 }) := by
  rw [perform_of_rejected ((decode_busWord rw a d).trans h), busRw_busWord]
  rfl

theorem perform_atChannel_of_rejected {rw : Bool} {c : Chan} {o : Nat} {d : Word} {e : Reject} (ho : o < 16)
    (h : decodeChannel rw c o d = .error e) (s : State) :
    perform (atChannel rw c o d) s = .next (if rw = true then s else { s with rdata := 0#32 }) := by
  refine perform_busWord_of_rejected (e := e) ?_ s
  exact (decode_busWord ..).symm.trans ((decode_atChannel rw c o ho d).trans h)

/-- Settles O28: in both regions these addresses decode to nothing. -/
theorem reservedAddressReadsZeroAndIgnoresWrites : Obligations.ReservedAddressReadsZeroAndIgnoresWrites := by
  refine ⟨fun rw a d s ha => ?_, fun rw c o d s ho => ?_⟩
  · obtain ⟨e, he⟩ := reserved_eq_error rw
    refine perform_busWord_of_rejected (e := e) ?_ s
    rw [← decode_busWord, decode_global (by omega), decodeGlobal_reserved (by omega), he]
  · obtain ⟨e, he⟩ := reserved_eq_error rw
    exact perform_atChannel_of_rejected (by omega) ((decodeChannel_reserved ho.1 rw c d).trans he) s

/-- Settles O29: each of these registers rejects a write. -/
theorem readOnlyRegistersIgnoreWrites : Obligations.ReadOnlyRegistersIgnoreWrites := by
  refine ⟨fun a d s ha => ?_, fun c o d s ho => ?_⟩
  · exact perform_busWord_of_rejected (rw := true) (e := .readOnlyWrite) (by fin_cases ha <;> rfl) s
  · exact perform_atChannel_of_rejected (rw := true) (e := .readOnlyWrite) (by fin_cases ho <;> decide) (by fin_cases ho <;> rfl) s

/-- Settles O30: each of these registers rejects a read. -/
theorem writeOnlyRegistersReadZeroWithoutAction : Obligations.WriteOnlyRegistersReadZeroWithoutAction := by
  refine ⟨fun a d s ha => ?_, fun c o d s ho => ?_⟩
  · exact perform_busWord_of_rejected (rw := false) (e := .writeOnlyRead) (by fin_cases ha <;> rfl) s
  · exact perform_atChannel_of_rejected (rw := false) (e := .writeOnlyRead) (by fin_cases ho <;> decide) (by fin_cases ho <;> rfl) s

/-- An operation on an absent channel: a read is answered 0, a write does nothing (30_encoding.md R91). -/
theorem exec_of_absent {i : Instr} {c : Chan} {s : State} (hi : i.chan = some c) (hc : s.nch ≤ c.toNat) :
    exec i s = .next (if i.isRead then answer 0#32 s else s) := by
  cases i with
  | wrCtrl | rdCtrl | wrStatus | rdStatus | wrSpt | rdSpt | wrRender | rdDiv | rdTickcnt | rdRbCap | rdRbWr | rdRbRd | rdRbOcc
  | rdRbFree | wrRbPush | pop => cases hi
  | rdChEn | rdChWave | rdChVol | rdChAtk | rdChRls | rdChInc | rdChAcc | rdChLevel | rdChStat =>
    cases hi
    exact congrArg (fun v => Host.Outcome.next (answer v s)) (bankWord_of_none hc _)
  | wrChEn | wrChWave | wrChVol | wrChAtk | wrChRls | wrChInc | wrChNote | wrChKeyoff | wrChReset =>
    cases hi
    exact congrArg Host.Outcome.next (updateBank_of_none hc _)

/-- What the channel region decodes is an operation on the channel of the address (30_encoding.md R83). -/
theorem chan_of_decodeChannel {rw : Bool} {c : Chan} {o : Nat} {d : Word} {i : Instr} (h : decodeChannel rw c o d = .ok i) :
    i.chan = some c := by
  unfold decodeChannel at h
  split at h <;> cases rw <;> cases h <;> rfl

/-- Settles O27: an offset without a register is rejected, and an operation on an absent channel has no bank to act on. -/
theorem absentChannelReadsZeroAndIgnoresWrites : Obligations.AbsentChannelReadsZeroAndIgnoresWrites := by
  intro rw c o d s ho hc
  have hd := decode_atChannel rw c o ho d
  cases hr : decodeChannel rw c o d with
  | ok i =>
    have hread : i.isRead = !rw := (congrArg decodedRead hr).symm.trans (decodedRead_decodeChannel rw c o d)
    rw [perform_of_ok (hd.trans hr), exec_of_absent (chan_of_decodeChannel hr) hc, hread]
    cases rw <;> rfl
  | error e => exact perform_atChannel_of_rejected ho hr s

/-! ### The pseudo-operations -/

/-- `{r, l}`, the right sample above the left one (30_encoding.md R95; 44_ring_buffer.md R193). -/
theorem append_eq_shiftLeft_or (r l : Half) : r ++ l = ((r.setWidth 32 <<< 16) ||| l.setWidth 32 : Word) := by
  rw [BitVec.append_def, BitVec.shiftLeftZeroExtend_eq, BitVec.setWidth'_eq]

/-- `ATTACH` on an existing channel: its bank is reset, then enabled (30_encoding.md R95). -/
theorem exec_attach {s : State} {c : Chan} {b : Bank} (hb : s.banks[c.toNat]? = some b) :
    ∃ t, exec (.wrChReset c 0#32) s = .next t ∧
      exec (.wrChEn c 1#32) t = .next { s with banks := s.banks.set c.toNat { Bank.reset with en := true } } := by
  refine ⟨_, rfl, congrArg Host.Outcome.next ?_⟩
  rw [updateBank_updateBank, updateBank_of_some hb]
  rfl

/-- Settles O60: the expansions by the model's own words, `PUSH` by its two halves, `ATTACH` by its two updates of the bank. -/
theorem pseudoOperationsExpandAsTabled : Obligations.PseudoOperationsExpandAsTabled := by
  refine ⟨fun n => ?render, fun l r => ?push, fun c inc => ?note, fun c => ⟨rfl, rfl, rfl, rfl, rfl⟩, fun b => ?pause, rfl,
    fun c s b => exec_attach⟩
  case render => rw [BitVec.ofNat_toNat, expand]
  case push => rw [expand, append_eq_shiftLeft_or]
  case note => rw [BitVec.ofNat_toNat, expand]
  case pause => cases b <;> rfl

end Sys2Proof.Machine

/-! SUPPORT. The global control family (spec/40_global_control.md): the operands and the answers of its registers, the three flags, and
`WR.SPT` in its two cases. -/

namespace Sys2Proof

/-- A global register's read decodes to its operation whatever its data, of which the encoder writes only 0 (30_encoding.md R80, R81). -/
theorem decode_of_encode_eq_rdGlobal {i : Instr} {a : Addr} (h : encode i = rdGlobal a) (d : Word) :
    decode (.bus (busWord false a d)) = .ok i := by
  have hzero : decode (rdGlobal a) = .ok i := h ▸ decode_encode i
  rw [decode_busWord, decodeAccess_read a d 0#32, ← decode_busWord]
  exact hzero

end Sys2Proof

namespace Sys2Proof.Machine

/-! ### Operands and answers -/

/-- `data[15:0]` is the data modulo 2^16 (30_encoding.md R86). -/
theorem field16_eq_setWidth (d : Word) : field16 d = d.setWidth 16 :=
  (BitVec.setWidth_eq_extractLsb' (by decide)).symm

/-- `zext_32` of a register is its unsigned value as a word (00_scope.md R9). -/
theorem zext32_eq_ofNat {n : Nat} (v : BitVec n) : zext32 v = BitVec.ofNat 32 v.toNat := (BitVec.ofNat_toNat 32 v).symm

theorem zextBit_eq_ofNat (b : Bool) : zextBit b = BitVec.ofNat 32 b.toNat := by
  rw [zextBit, zext32_eq_ofNat, BitVec.toNat_ofBool]

/-- A register that fits a word reads 0 only if it is 0. -/
theorem zext32_ne_zero {n : Nat} (hn : n ≤ 32) {v : BitVec n} (hv : v ≠ 0#n) : zext32 v ≠ 0#32 := by
  intro h
  have hnat : v.toNat = 0 := by
    rw [← BitVec.toNat_setWidth_of_le hn]
    exact congrArg BitVec.toNat h
  exact hv (BitVec.eq_of_toNat_eq hnat)

/-- A read that answers `v` answers `w`, where the two words are equal, and changes nothing else. -/
theorem answers_of_eq {i : Instr} {s : State} {v w : Word} (hexec : exec i s = .next (answer v s)) (h : v = w) : Answers i s w :=
  h ▸ hexec

/-! ### The three flags -/

/-- The `STATUS` word: `OVR` in bit 0, `UDR` in bit 1, `CFGERR` in bit 2 (40_global_control.md R103). -/
theorem statusWord_eq_ofNat (s : State) :
    statusWord s = BitVec.ofNat 32 (s.ovr.toNat + 2 * s.udr.toNat + 4 * s.cfgerr.toNat) := by
  unfold statusWord
  cases s.cfgerr <;> cases s.udr <;> cases s.ovr <;> rfl

/-- A flag masked by its data bit: cleared where the bit is 1, else kept. -/
theorem and_not_eq_ite (flag bit : Bool) : (flag && !bit) = if bit = true then false else flag := by
  cases bit with
  | true => exact Bool.and_false flag
  | false => exact Bool.and_true flag

/-- Write-1-to-clear as three conditional assignments (40_global_control.md R102). -/
theorem clearFlags_eq_ite (d : Word) (s : State) :
    clearFlags d s =
      { s with
        ovr := if d.getLsbD 0 = true then false else s.ovr
        udr := if d.getLsbD 1 = true then false else s.udr
        cfgerr := if d.getLsbD 2 = true then false else s.cfgerr } := by
  simp only [clearFlags, fieldBit, and_not_eq_ite]

/-! ### The registers -/

/-- `WR.SPT` of 0 is rejected: only `CFGERR` changes (40_global_control.md R104). -/
theorem exec_wrSpt_of_zero {d : Word} (h : d.setWidth 16 = 0#16) (s : State) :
    exec (.wrSpt d) s = .next { s with cfgerr := true } :=
  congrArg Host.Outcome.next (if_pos ((field16_eq_setWidth d).trans h))

/-- `WR.SPT` of another value stores it (40_global_control.md R104). -/
theorem exec_wrSpt_of_ne_zero {d : Word} (h : d.setWidth 16 ≠ 0#16) (s : State) :
    exec (.wrSpt d) s = .next { s with spt := d.setWidth 16 } := by
  rw [← field16_eq_setWidth] at h ⊢
  exact congrArg Host.Outcome.next (if_neg h)

/-- Settles O16: the register takes the bit, and the record update is the frame. -/
theorem wrCtrlSetsPauseAlone : Obligations.WrCtrlSetsPauseAlone :=
  fun d _ => ⟨decode_encode (.wrCtrl d), rfl⟩

/-- Settles O17: each flag's mask is a conditional assignment. -/
theorem wrStatusClearsTheSelectedFlagsAlone : Obligations.WrStatusClearsTheSelectedFlagsAlone :=
  fun d s => ⟨decode_encode (.wrStatus d), congrArg Host.Outcome.next (clearFlags_eq_ite d s)⟩

/-- Settles O18: one lemma for each branch of the configuration check. -/
theorem wrSptStoresANonzeroValueAndRejectsZero : Obligations.WrSptStoresANonzeroValueAndRejectsZero :=
  fun d s => ⟨decode_encode (.wrSpt d), fun h => exec_wrSpt_of_zero h s, fun h => exec_wrSpt_of_ne_zero h s⟩

/-- Settles O19: each register answers its value as a word; the invariant keeps `SPT` from 0. -/
theorem globalRegistersReadTheirValues : Obligations.GlobalRegistersReadTheirValues := by
  intro d s
  refine
    ⟨decode_of_encode_eq_rdGlobal rfl d, answers_of_eq rfl (zextBit_eq_ofNat s.pause),
      decode_of_encode_eq_rdGlobal rfl d, answers_of_eq rfl (statusWord_eq_ofNat s),
      decode_of_encode_eq_rdGlobal rfl d, answers_of_eq rfl (zext32_eq_ofNat s.spt),
      fun hs => ?sptReadsNonzero,
      decode_of_encode_eq_rdGlobal rfl d, answers_of_eq rfl (zext32_eq_ofNat s.div),
      decode_of_encode_eq_rdGlobal rfl d, answers_of_eq rfl (zext32_eq_ofNat s.tickcnt)⟩
  case sptReadsNonzero =>
    rw [← zext32_eq_ofNat]
    exact zext32_ne_zero (by decide) hs.sptNonzero

end Sys2Proof.Machine

/-! SUPPORT. The oscillator family (spec/41_oscillator.md): the registers of one channel, the phase along the frames, a bank's
contribution as a sample of the waveform table, and its range. -/

namespace Sys2Proof.Machine

/-! ### The registers of one channel -/

/-- `data[1:0]` is the data modulo 2^2 (30_encoding.md R86). -/
theorem field2_eq_setWidth (d : Word) : field2 d = d.setWidth 2 :=
  (BitVec.setWidth_eq_extractLsb' (by decide)).symm

/-- `data[7:0]` is the data modulo 2^8 (30_encoding.md R86). -/
theorem field8_eq_setWidth (d : Word) : field8 d = d.setWidth 8 :=
  (BitVec.setWidth_eq_extractLsb' (by decide)).symm

/-- A write at offset `o` of an existing channel, by the row of the decoder and the field update it makes: the bank `b` becomes
`b'`, and nothing else changes (30_encoding.md R83, R87). -/
theorem channelWrite_of_some {c : Chan} {o : Nat} {d : Word} {s : State} {b b' : Bank} {i : Instr} {f : Bank → Bank}
    (hb : s.banks[c.toNat]? = some b) (ho : o < 16) (hrow : decodeChannel true c o d = .ok i)
    (hexec : exec i s = .next (updateBank c f s)) (hf : f b = b') :
    decode (atChannel true c o d) = .ok i ∧ exec i s = .next { s with banks := s.banks.set c.toNat b' } :=
  ⟨(decode_atChannel true c o ho d).trans hrow, by rw [hexec, updateBank_of_some hb, hf]⟩

/-- A read at offset `o` of an existing channel, by the row of the decoder and what it delivers of the bank: it answers `v`, and
nothing else changes (30_encoding.md R83; 20_memory.md R64). -/
theorem channelRead_of_some {c : Chan} {o : Nat} {d : Word} {s : State} {b : Bank} {i : Instr} {f : Bank → Word} {v : Word}
    (hb : s.banks[c.toNat]? = some b) (ho : o < 16) (hrow : decodeChannel false c o d = .ok i)
    (hexec : exec i s = .next (answer (bankWord c f s) s)) (hf : f b = v) :
    decode (atChannel false c o d) = .ok i ∧ Answers i s v :=
  ⟨(decode_atChannel false c o ho d).trans hrow, answers_of_eq hexec ((bankWord_of_some hb f).trans hf)⟩

/-- Settles O21: each write updates one field of the bank, and the fields truncate. -/
theorem channelFieldWritesStoreTheFieldAlone : Obligations.ChannelFieldWritesStoreTheFieldAlone := by
  intro c d s b hb
  rw [← field2_eq_setWidth, ← field8_eq_setWidth, ← field16_eq_setWidth]
  refine ⟨?en, ?wave, ?vol, ?atk, ?rls, ?inc⟩ <;> exact channelWrite_of_some hb (by decide) rfl rfl rfl

/-- Settles O22: each read delivers one field of the bank, zero-extended. -/
theorem channelFieldReadsAnswerTheField : Obligations.ChannelFieldReadsAnswerTheField := by
  intro c d s b hb
  refine ⟨channelRead_of_some hb (by decide) rfl rfl (zextBit_eq_ofNat b.en), ?wave, ?vol, ?atk, ?rls, ?inc, ?acc, ?level⟩ <;>
    exact channelRead_of_some hb (by decide) rfl rfl (zext32_eq_ofNat _)

/-- A channel is active iff it is enabled with an increment other than 0 (43_mixer.md R171). -/
theorem Bank.active_iff (b : Bank) : b.active = true ↔ b.en = true ∧ b.inc ≠ 0#16 := by
  rw [Bank.active, Bool.and_eq_true, bne_iff_ne]

/-- The `CH_STAT` word: `RELF` in bit 0, `ACTIVE` in bit 1 (41_oscillator.md R137). -/
theorem Bank.statWord_eq_ofNat (b : Bank) : b.statWord = BitVec.ofNat 32 (b.relf.toNat + 2 * b.active.toNat) := by
  unfold Bank.statWord
  cases b.active <;> cases b.relf <;> rfl

/-- Settles O23: the word answered is that of both bits, in each case of `ACTIVE`. -/
theorem chStatReadsReleaseAndActivity : Obligations.ChStatReadsReleaseAndActivity := by
  intro c d s b hb
  obtain ⟨hdecode, hanswers⟩ := channelRead_of_some (d := d) (o := 0xB) hb (by decide) rfl rfl b.statWord_eq_ofNat
  refine ⟨hdecode, fun hactive => ?_, fun hactive => ?_⟩ <;> rw [← Bank.active_iff] at hactive
  · rwa [hactive] at hanswers
  · rwa [Bool.eq_false_iff.mpr hactive] at hanswers

/-- Settles O24: one update of four fields. -/
theorem noteOnRestartsPhaseAndEnvelope : Obligations.NoteOnRestartsPhaseAndEnvelope := by
  intro c d s b hb
  rw [← field16_eq_setWidth]
  exact channelWrite_of_some hb (by decide) rfl rfl rfl

/-- Settles O26: the bank becomes `Bank.reset`, whatever the data and the bank. -/
theorem chResetZeroesTheBankAlone : Obligations.ChResetZeroesTheBankAlone :=
  fun _ _ _ _ hb => channelWrite_of_some hb (by decide) rfl rfl rfl

/-! ### The phase along the frames -/

theorem Bank.advance_of_active {b : Bank} (h : b.active = true) : b.advance = { b with acc := b.acc + b.inc } := if_pos h

theorem Bank.advance_of_inactive {b : Bank} (h : ¬b.active = true) : b.advance = b := if_neg h

/-- The phase of an active channel after `n` frames: `n` increments, modulo 2^16 (41_oscillator.md R140). -/
theorem Bank.advance_iterate {b : Bank} (h : b.active = true) (n : Nat) :
    Bank.advance^[n] b = { b with acc := BitVec.ofNat 16 (b.acc.toNat + n * b.inc.toNat) } := by
  induction n with
  | zero => simp
  | succ n ih =>
    have hactive : (Bank.advance^[n] b).active = true := by
      rw [ih]
      exact h
    rw [Function.iterate_succ_apply', Bank.advance_of_active hactive, ih, Nat.succ_mul, ← Nat.add_assoc,
      BitVec.ofNat_add _ b.inc.toNat, BitVec.ofNat_toNat, BitVec.setWidth_eq]

/-- An increment taken `m / gcd` times is a whole number of periods `m` (41_oscillator.md R141). -/
theorem dvd_cycle_mul (a m : Nat) : m ∣ m / Nat.gcd a m * a := by
  rw [Nat.mul_comm, ← Nat.mul_div_assoc a (Nat.gcd_dvd_right a m)]
  exact Nat.dvd_lcm_right a m

/-- Settles O41: the closed form for `n` frames, at a whole number of periods for the cycle. -/
theorem phaseAdvancesByTheIncrement : Obligations.PhaseAdvancesByTheIncrement := by
  intro b
  refine ⟨fun h => Bank.advance_of_inactive (mt b.active_iff.mp h), fun hen hinc => ?_⟩
  have hactive : b.active = true := b.active_iff.mpr ⟨hen, hinc⟩
  refine ⟨Bank.advance_iterate hactive, ?_⟩
  have hacc : BitVec.ofNat 16 (b.acc.toNat + 65536 / Nat.gcd b.inc.toNat 65536 * b.inc.toNat) = b.acc := by
    obtain ⟨q, hq⟩ := dvd_cycle_mul b.inc.toNat 65536
    rw [hq]
    apply BitVec.eq_of_toNat_eq
    rw [BitVec.toNat_ofNat, Nat.add_mul_mod_self_left, Nat.mod_eq_of_lt b.acc.isLt]
  rw [Bank.advance_iterate hactive, hacc]

/-! ### The waveforms -/

/-- How many of the sixteen steps of a cycle, by `p[15:12]`, are positive: the thresholds of 41_oscillator.md R143. -/
def Wave.positiveSteps : Wave → Nat
  | .sq25 => 4
  | .sq50 => 8
  | .sq75 => 12
  | .tri => 8

/-- The triangle's fold at step `n` of a cycle: 0, 1, 2, 3, 3, 2, 1, 0, twice (41_oscillator.md R145). -/
def foldAt (n : Nat) : Nat := if 4 ≤ n % 8 then 7 - n % 8 else n % 8

/-- The magnitude at step `n` of a cycle (41_oscillator.md R144, R145). -/
def Wave.magnitudeAt (v : Wave) (level n : Nat) : Nat :=
  match v with
  | .sq25 | .sq50 | .sq75 => level / 8
  | .tri => level * foldAt n / 16

/-- The contribution at step `n` of a cycle (41_oscillator.md R142). -/
def Wave.sampleAt (v : Wave) (level n : Nat) : Int :=
  if v.positiveSteps ≤ n then -(v.magnitudeAt level n : Int) else (v.magnitudeAt level n : Int)

/-- The sign selector is a threshold on the phase (41_oscillator.md R143). -/
theorem Bank.negSel_iff (b : Bank) : b.negSel = true ↔ (Wave.ofCode b.wave).positiveSteps ≤ b.acc.toNat / 4096 := by
  have hacc := b.acc.isLt
  have hbit (i : Nat) : b.acc.getLsbD i = true ↔ b.acc.toNat / 2 ^ i % 2 = 1 := by
    rw [BitVec.getLsbD, Nat.testBit_eq_decide_div_mod_eq, decide_eq_true_eq]
  unfold Bank.negSel
  cases Wave.ofCode b.wave with
  | sq25 | sq50 | sq75 | tri =>
    simp only [Wave.positiveSteps, Bool.or_eq_true, Bool.and_eq_true, hbit]
    omega

/-- The fold reads `p[14:12]`, three bits of the step (41_oscillator.md R145). -/
theorem Bank.fold_eq_foldAt (b : Bank) : b.fold = foldAt (b.acc.toNat / 4096) := by
  have hslice : (b.acc.extractLsb' 12 3).toNat = b.acc.toNat / 4096 % 8 := by
    rw [BitVec.extractLsb'_toNat, Nat.shiftRight_eq_div_pow]
  have htop : (b.acc.extractLsb' 12 3).getLsbD 2 = decide (4 ≤ b.acc.toNat / 4096 % 8) := by
    rw [BitVec.getLsbD, hslice, Nat.testBit_eq_decide_div_mod_eq, decide_eq_decide]
    omega
  simp only [Bank.fold, foldAt, hslice, htop, decide_eq_true_eq]

theorem Bank.magnitude_eq_magnitudeAt (b : Bank) :
    b.magnitude = (Wave.ofCode b.wave).magnitudeAt b.level.toNat (b.acc.toNat / 4096) := by
  unfold Bank.magnitude
  rw [Bank.fold_eq_foldAt]
  cases Wave.ofCode b.wave <;> exact Nat.shiftRight_eq_div_pow ..

/-- "Bits `p[11:0]` do not influence the contribution" (41_oscillator.md R146): it is the sample at step `p[15:12]`. -/
theorem Bank.contribution_eq_sampleAt (b : Bank) :
    b.contribution = (Wave.ofCode b.wave).sampleAt b.level.toNat (b.acc.toNat / 4096) := by
  simp only [Bank.contribution, Wave.sampleAt, Bank.negSel_iff, Bank.magnitude_eq_magnitudeAt]

/-- The table of 41_oscillator.md R146 lists the sixteen samples of a cycle. -/
theorem waveTable_eq_map_sampleAt (w : BitVec 2) (level : Nat) :
    waveTable w level = (List.range 16).map ((Wave.ofCode w).sampleAt level) := by
  have hcodes : ∀ v : BitVec 2, v = 0#2 ∨ v = 1#2 ∨ v = 2#2 ∨ v = 3#2 := by decide
  rcases hcodes w with rfl | rfl | rfl | rfl
  · rfl
  · rfl
  · rfl
  · simp [waveTable, List.range_succ, Wave.ofCode, Wave.sampleAt, Wave.positiveSteps, Wave.magnitudeAt, foldAt]

/-- Settles O39: a phase is in one of the sixteen steps, and over the steps all but the DC component cancels. -/
theorem contributionFollowsTheWaveformTable : Obligations.ContributionFollowsTheWaveformTable := by
  refine ⟨fun b => ?_, fun level => ⟨?sq25, ?sq50, ?sq75, ?tri⟩⟩
  · have hstep : b.acc.toNat / 4096 < 16 := by
      have := b.acc.isLt
      omega
    rw [waveTable_eq_map_sampleAt, List.getElem?_map, List.getElem?_range hstep, Option.map_some, Bank.contribution_eq_sampleAt]
  case sq25 | sq50 | sq75 | tri =>
    simp only [waveTable, BitVec.reduceToNat, List.sum_cons, List.sum_nil]
    ring

/-! ### The range of a contribution -/

/-- The sign leaves a contribution's size the magnitude (41_oscillator.md R142). -/
theorem Bank.abs_contribution (b : Bank) : |b.contribution| = b.magnitude := by
  unfold Bank.contribution
  split
  · rw [abs_neg, Nat.abs_cast]
  · exact Nat.abs_cast _

theorem foldAt_le (n : Nat) : foldAt n ≤ 3 := by
  unfold foldAt
  split <;> omega

theorem Wave.ofCode_eq_tri_iff : ∀ w : BitVec 2, Wave.ofCode w = .tri ↔ w = 3#2 := by decide

/-- A level of at most 255 gives a square a magnitude of at most 31 (41_oscillator.md R144). -/
theorem Wave.magnitudeAt_le_of_ne_tri {v : Wave} {level : Nat} (hv : v ≠ .tri) (hlevel : level < 256) (n : Nat) :
    v.magnitudeAt level n ≤ 31 := by
  cases v with
  | sq25 | sq50 | sq75 => simp only [Wave.magnitudeAt]; omega
  | tri => exact absurd rfl hv

/-- A level of at most 255 gives every waveform a magnitude of at most 47, the triangle's peak (41_oscillator.md R145). -/
theorem Wave.magnitudeAt_le {level : Nat} (hlevel : level < 256) (v : Wave) (n : Nat) : v.magnitudeAt level n ≤ 47 := by
  cases v with
  | sq25 | sq50 | sq75 => simp only [Wave.magnitudeAt]; omega
  | tri =>
    have hproduct : level * foldAt n ≤ 255 * 3 := Nat.mul_le_mul (by omega) (foldAt_le n)
    simp only [Wave.magnitudeAt]
    omega

/-- Settles O40: the bounds on the magnitude, through the absolute value. -/
theorem contributionStaysInItsRange : Obligations.ContributionStaysInItsRange := by
  intro b
  rw [← abs_le, ← abs_le, Bank.abs_contribution, Bank.magnitude_eq_magnitudeAt]
  refine ⟨fun hsquare => ?_, ?_⟩
  · exact_mod_cast Wave.magnitudeAt_le_of_ne_tri (mt (Wave.ofCode_eq_tri_iff _).mp hsquare) b.level.isLt _
  · exact_mod_cast Wave.magnitudeAt_le b.level.isLt _ _

end Sys2Proof.Machine

/-! SUPPORT. The envelope family (spec/42_envelope.md): key-off; one tick of a bank, in its attack and in its release; the level along
the ticks; the ticks along the frames of a burst. -/

namespace Sys2Proof.Machine

/-- Settles O25: one update of one field, whatever the data and the bank. -/
theorem keyOffSetsTheReleaseFlagAlone : Obligations.KeyOffSetsTheReleaseFlagAlone :=
  fun _ _ _ _ hb => channelWrite_of_some hb (by decide) rfl rfl rfl

/-! ### One tick of a bank -/

@[simp] theorem Bank.tick_en (b : Bank) : b.tick.en = b.en := by rw [Bank.tick_eq]
@[simp] theorem Bank.tick_vol (b : Bank) : b.tick.vol = b.vol := by rw [Bank.tick_eq]
@[simp] theorem Bank.tick_atk (b : Bank) : b.tick.atk = b.atk := by rw [Bank.tick_eq]
@[simp] theorem Bank.tick_relf (b : Bank) : b.tick.relf = b.relf := by rw [Bank.tick_eq]

theorem Bank.tick_of_disabled {b : Bank} (hen : b.en = false) : b.tick = b := by
  rw [Bank.tick, hen, if_neg Bool.false_ne_true]

theorem Bank.tick_of_attack {b : Bank} (hen : b.en = true) (hrelf : b.relf = false) :
    b.tick = { b with level := BitVec.ofInt 8 b.attackLevel } := by
  rw [Bank.tick, if_pos hen, hrelf, if_neg Bool.false_ne_true]

theorem Bank.tick_of_release {b : Bank} (hen : b.en = true) (hrelf : b.relf = true) (hlevel : 0 < b.level.toNat) :
    b.tick = { b with level := BitVec.ofNat 8 (b.level.toNat - b.releaseStep) } := by
  rw [Bank.tick, if_pos hen, if_pos hrelf, if_pos hlevel]

theorem Bank.tick_of_silent {b : Bank} (hen : b.en = true) (hrelf : b.relf = true) (hlevel : b.level = 0#8) : b.tick = b := by
  rw [Bank.tick, if_pos hen, if_pos hrelf, hlevel, if_neg (by decide)]

/-! ### The attack -/

/-- The attack phase with the division of R161 written as floor division by 256 (42_envelope.md R161). -/
theorem Bank.attackLevel_eq_fdiv (b : Bank) :
    b.attackLevel = b.level.toNat + Int.fdiv (((b.vol.toNat : Int) - b.level.toNat) * b.atk.toNat) 256 := by
  rw [Int.fdiv_eq_ediv_of_nonneg _ (by decide)]
  rfl

/-- Up to a target not below the level the attack adds the product's quotient, rounded down (42_envelope.md R162 (a)). -/
theorem Bank.attackLevel_of_le {b : Bank} (h : b.level.toNat ≤ b.vol.toNat) :
    b.attackLevel = (b.level.toNat + (b.vol.toNat - b.level.toNat) * b.atk.toNat / 256 : Nat) := by
  rw [Bank.attackLevel_eq_fdiv, ← Nat.cast_sub h, Int.fdiv_eq_ediv_of_nonneg _ (by decide)]
  push_cast
  rfl

/-- Down to a target not above the level the attack subtracts the product's quotient, rounded up: the floor of a negative number
(42_envelope.md R162 (b)). -/
theorem Bank.attackLevel_of_ge {b : Bank} (h : b.vol.toNat ≤ b.level.toNat) :
    b.attackLevel = (b.level.toNat : Int) - (((b.level.toNat - b.vol.toNat) * b.atk.toNat + 255) / 256 : Nat) := by
  have hneg : ((b.vol.toNat : Int) - b.level.toNat) * b.atk.toNat =
      -(((b.level.toNat - b.vol.toNat) * b.atk.toNat : Nat) : Int) := by
    rw [Nat.cast_mul, Nat.cast_sub h, ← Int.neg_mul, Int.neg_sub]
  rw [Bank.attackLevel_eq_fdiv, hneg, Int.fdiv_eq_ediv_of_nonneg _ (by decide)]
  omega

/-- The rise is less than the distance, which `ATK / 256 < 1` scales (42_envelope.md R162 (a)). -/
theorem attackRise_le (d : Nat) (a : Level) : d * a.toNat / 256 ≤ d - 1 := by
  have hscale : d * a.toNat ≤ d * 255 := Nat.mul_le_mul_left d (by omega)
  omega

/-- The fall is at most the distance (42_envelope.md R162 (b)). -/
theorem attackFall_le (d : Nat) (a : Level) : (d * a.toNat + 255) / 256 ≤ d := by
  have hscale : d * a.toNat ≤ d * 255 := Nat.mul_le_mul_left d (by omega)
  omega

/-- The fall over a distance is at least 1, unless `ATK = 0` (42_envelope.md R162 (b)). -/
theorem attackFall_pos {d : Nat} (hd : 0 < d) {a : Level} (ha : a ≠ 0#8) : 0 < (d * a.toNat + 255) / 256 := by
  have hproduct : 0 < d * a.toNat := Nat.mul_pos hd (Nat.pos_of_ne_zero fun e => ha (BitVec.eq_of_toNat_eq e))
  omega

/-- The attack stays in the range of a level (42_envelope.md R163). -/
theorem Bank.attackLevel_range (b : Bank) : 0 ≤ b.attackLevel ∧ b.attackLevel < 256 := by
  rcases le_total b.level.toNat b.vol.toNat with h | h
  · have := attackRise_le (b.vol.toNat - b.level.toNat) b.atk
    rw [Bank.attackLevel_of_le h]
    omega
  · have := attackFall_le (b.level.toNat - b.vol.toNat) b.atk
    rw [Bank.attackLevel_of_ge h]
    omega

/-- No attack step is truncated: the new level is the integer of R161 (42_envelope.md R163). -/
theorem Bank.toNat_tick_level_of_attack {b : Bank} (hen : b.en = true) (hrelf : b.relf = false) :
    (b.tick.level.toNat : Int) = b.attackLevel := by
  obtain ⟨hnonneg, hlt⟩ := b.attackLevel_range
  rw [Bank.tick_of_attack hen hrelf]
  change ((BitVec.ofInt 8 b.attackLevel).toNat : Int) = b.attackLevel
  rw [BitVec.toNat_ofInt]
  omega

/-- The level after an attack step towards a target not below it (42_envelope.md R162 (a)). -/
theorem Bank.tick_level_of_rising {b : Bank} (hen : b.en = true) (hrelf : b.relf = false) (h : b.level.toNat ≤ b.vol.toNat) :
    b.tick.level.toNat = b.level.toNat + (b.vol.toNat - b.level.toNat) * b.atk.toNat / 256 := by
  have hlevel := Bank.toNat_tick_level_of_attack hen hrelf
  rw [Bank.attackLevel_of_le h] at hlevel
  exact_mod_cast hlevel

/-- The level after an attack step towards a target not above it (42_envelope.md R162 (b)). -/
theorem Bank.tick_level_of_falling {b : Bank} (hen : b.en = true) (hrelf : b.relf = false) (h : b.vol.toNat ≤ b.level.toNat) :
    b.tick.level.toNat = b.level.toNat - ((b.level.toNat - b.vol.toNat) * b.atk.toNat + 255) / 256 := by
  have hlevel := Bank.toNat_tick_level_of_attack hen hrelf
  rw [Bank.attackLevel_of_ge h] at hlevel
  omega

/-- Settles O36: towards a target above, the rise stops short of it; towards one below, the fall is at least 1 and stops at it. -/
theorem attackStepApproachesTheVolume : Obligations.AttackStepApproachesTheVolume := by
  refine fun b => ⟨b.tick_eq, Bank.tick_of_disabled, fun hen hrelf => ⟨?formula, ?above, ?below, ?kept, ?silent⟩⟩
  case formula => rw [Bank.toNat_tick_level_of_attack hen hrelf, Bank.attackLevel_eq_fdiv]
  case above =>
    intro h
    have hrise := attackRise_le (b.vol.toNat - b.level.toNat) b.atk
    rw [← BitVec.toNat_inj, Bank.tick_level_of_rising hen hrelf h.le]
    omega
  case below =>
    intro h hatk
    have hle := attackFall_le (b.level.toNat - b.vol.toNat) b.atk
    have hpos := attackFall_pos (Nat.sub_pos_of_lt h) hatk
    rw [Bank.tick_level_of_falling hen hrelf h.le]
    omega
  case kept =>
    intro h
    have hproduct : ((b.vol.toNat : Int) - b.level.toNat) * b.atk.toNat = 0 := by
      rcases h with h | h <;> simp [h]
    have hlevel := Bank.toNat_tick_level_of_attack hen hrelf
    rw [Bank.attackLevel_eq_fdiv, hproduct, Int.zero_fdiv, Int.add_zero] at hlevel
    exact BitVec.eq_of_toNat_eq (Int.ofNat_inj.mp hlevel)
  case silent =>
    intro h
    rw [Bank.tick_level_of_rising hen hrelf (by simp [h]), h]
    simp

/-! ### The level along the ticks -/

/-- A step that keeps `P` and lowers the measure `m` until it is 0 brings it to 0 within `m` steps. -/
theorem iterate_measure_eq_zero {α : Type} {f : α → α} {P : α → Prop} {m : α → Nat}
    (hkeeps : ∀ x, P x → P (f x)) (hlowers : ∀ x, P x → m (f x) ≤ m x - 1) (n : Nat) :
    ∀ x, P x → m x ≤ n → P (f^[n] x) ∧ m (f^[n] x) = 0 := by
  induction n with
  | zero => exact fun x hx hm => ⟨hx, Nat.le_zero.mp hm⟩
  | succ n ih =>
    intro x hx hm
    have hm' := hlowers x hx
    exact ih (f x) (hkeeps x hx) (by omega)

/-- In its attack, above the target `v` or at it, with an attack constant other than 0. -/
structure Bank.FallsTo (v : Level) (b : Bank) : Prop where
  en : b.en = true
  relf : b.relf = false
  atk : b.atk ≠ 0#8
  vol : b.vol = v
  above : v.toNat ≤ b.level.toNat

theorem Bank.FallsTo.tick {v : Level} {b : Bank} (h : b.FallsTo v) : b.tick.FallsTo v where
  en := by rw [Bank.tick_en, h.en]
  relf := by rw [Bank.tick_relf, h.relf]
  atk := by rw [Bank.tick_atk]; exact h.atk
  vol := by rw [Bank.tick_vol, h.vol]
  above := by
    have habove := h.above
    have hle := attackFall_le (b.level.toNat - v.toNat) b.atk
    rw [Bank.tick_level_of_falling h.en h.relf (h.vol ▸ habove), h.vol]
    omega

/-- Each tick takes at least 1 off the distance from the target (42_envelope.md R162 (b)). -/
theorem Bank.FallsTo.tick_distance {v : Level} {b : Bank} (h : b.FallsTo v) :
    b.tick.level.toNat - v.toNat ≤ b.level.toNat - v.toNat - 1 := by
  have habove := h.above
  have hfall := Bank.tick_level_of_falling h.en h.relf (h.vol ▸ habove)
  have hle := attackFall_le (b.level.toNat - v.toNat) b.atk
  have hpos : 0 < b.level.toNat - v.toNat → _ := fun hd => attackFall_pos hd h.atk
  rw [h.vol] at hfall
  omega

/-- Settles O37: the distance from the target is the measure. -/
theorem loweredVolumeIsReachedExactly : Obligations.LoweredVolumeIsReachedExactly := by
  intro b n hen hrelf hatk habove hn
  obtain ⟨hfalls, hdistance⟩ := iterate_measure_eq_zero (m := fun x => x.level.toNat - b.vol.toNat)
    (fun _ => Bank.FallsTo.tick) (fun _ => Bank.FallsTo.tick_distance) n b ⟨hen, hrelf, hatk, rfl, habove⟩ hn
  exact BitVec.eq_of_toNat_eq (Nat.le_antisymm (Nat.le_of_sub_eq_zero hdistance) hfalls.above)

theorem Bank.releaseStep_pos (b : Bank) : 1 ≤ b.releaseStep := Nat.le_max_left ..

theorem Bank.releaseStep_eq (b : Bank) : b.releaseStep = max 1 (b.level.toNat * b.rls.toNat / 256) := by
  rw [Bank.releaseStep, Nat.shiftRight_eq_div_pow]
  rfl

/-- The decrement of the release is at most the level it is taken from (42_envelope.md R163). -/
theorem Bank.releaseStep_le {b : Bank} (h : 0 < b.level.toNat) : b.releaseStep ≤ b.level.toNat := by
  have hscale : b.level.toNat * b.rls.toNat ≤ b.level.toNat * 255 := Nat.mul_le_mul_left _ (by omega)
  rw [Bank.releaseStep_eq]
  omega

/-- The level after a release step (42_envelope.md R161). -/
theorem Bank.tick_level_of_release {b : Bank} (hen : b.en = true) (hrelf : b.relf = true) (h : 0 < b.level.toNat) :
    b.tick.level.toNat = b.level.toNat - b.releaseStep := by
  rw [Bank.tick_of_release hen hrelf h]
  exact (BitVec.toNat_ofNat ..).trans (Nat.mod_eq_of_lt (by omega))

/-- Each tick of the release lowers the level, until it is 0 (42_envelope.md R164). -/
theorem Bank.tick_level_le_of_release {b : Bank} (hen : b.en = true) (hrelf : b.relf = true) :
    b.tick.level.toNat ≤ b.level.toNat - 1 := by
  rcases Nat.eq_zero_or_pos b.level.toNat with h | h
  · rw [Bank.tick_of_silent hen hrelf (BitVec.eq_of_toNat_eq h), h]
  · have hstep := b.releaseStep_pos
    rw [Bank.tick_level_of_release hen hrelf h]
    omega

/-- Settles O38: the level is the measure. -/
theorem releaseDecaysStrictlyToSilence : Obligations.ReleaseDecaysStrictlyToSilence := by
  intro b hen hrelf
  refine ⟨fun hlevel => ?_, Bank.tick_of_silent hen hrelf, fun n hn => ?_⟩
  · have hpos : 0 < b.level.toNat := Nat.pos_of_ne_zero fun e => hlevel (BitVec.eq_of_toNat_eq e)
    have hle := Bank.releaseStep_le hpos
    have hge := b.releaseStep_pos
    rw [← Bank.releaseStep_eq, Bank.tick_level_of_release hen hrelf hpos]
    omega
  · obtain ⟨_, hsilent⟩ := iterate_measure_eq_zero (f := Bank.tick) (P := fun x => x.en = true ∧ x.relf = true)
      (m := fun x => x.level.toNat) (fun x hx => by simpa using hx)
      (fun _ ⟨hen, hrelf⟩ => Bank.tick_level_le_of_release hen hrelf) n b ⟨hen, hrelf⟩ hn
    exact BitVec.eq_of_toNat_eq hsilent

/-! ### The ticks along the frames of a burst -/

/-- The render engine's step where the frame is accepted and rendered (43_mixer.md R176, R177). -/
theorem engineStep_of_rendered {s : State} (hroom : free s ≠ 0) (hplay : s.pause = false) :
    engineStep s =
      { push (packFrame (mixValue ((tickIfDue s).banks.map Bank.advance))) s with
        banks := (tickIfDue s).banks.map Bank.advance
        tickcnt := (tickIfDue s).tickcnt
        div := nextDiv s
        rcnt := s.rcnt - 1#16 } := by
  rcases engineStep_cases s with ⟨hfull | hpaused, _⟩ | ⟨_, _, e⟩
  · exact absurd hfull hroom
  · exact absurd (hplay.symm.trans hpaused) Bool.false_ne_true
  · exact e

/-- An accepted push takes one slot of the room (44_ring_buffer.md R190, R191). -/
theorem free_push {s : State} (hw : s.wr < s.cap) (h : free s ≠ 0) (f : Word) : free (push f s) = free s - 1 := by
  have hold := free_add_occ s
  have hnew := free_add_occ (push f s)
  rw [occ_push hw h, push_cap] at hnew
  omega

/-- `DIV` counts modulo `SPT` (43_mixer.md R176). -/
theorem nextDiv_toNat {s : State} (h : s.div.toNat < s.spt.toNat) : (nextDiv s).toNat = (s.div.toNat + 1) % s.spt.toNat := by
  have hmax := s.spt.isLt
  unfold nextDiv
  split
  next hlast =>
    rw [show s.div.toNat + 1 = s.spt.toNat from Nat.le_antisymm h hlast, Nat.mod_self]
    rfl
  next hlt =>
    rw [Nat.mod_eq_of_lt (Nat.not_le.mp hlt), BitVec.toNat_add, BitVec.toNat_one (by decide), Nat.mod_eq_of_lt (by omega)]

/-- The ticks due in `n` frames from a tick boundary: those of frames `1, 1 + p, 1 + 2*p, ...`, one more wherever a period is full. -/
theorem ticksDue_succ {p : Nat} (hp : 0 < p) (n : Nat) : (n + 1 + p - 1) / p = (n + p - 1) / p + if n % p = 0 then 1 else 0 := by
  have hpred : n + 1 + p - 1 = n + p - 1 + 1 := by omega
  have hboundary : p ∣ n + p - 1 + 1 ↔ n % p = 0 := by
    rw [Nat.sub_add_cancel (by omega), Nat.dvd_add_self_right, Nat.dvd_iff_mod_eq_zero]
  rw [hpred, Nat.succ_div]
  simp only [hboundary]

/-- `t` stands after `i` accepted, unpaused frames of the burst that begins in `s` at a tick boundary. -/
structure AfterFrames (s : State) (i : Nat) (t : State) : Prop where
  spt : t.spt = s.spt
  pause : t.pause = false
  wrInside : t.wr < t.cap
  room : free t = free s - i
  div : t.div.toNat = i % s.spt.toNat
  ticks : t.tickcnt.toNat = (s.tickcnt.toNat + (i + s.spt.toNat - 1) / s.spt.toNat) % 65536
  rcnt : t.rcnt.toNat = s.rcnt.toNat - i
  ovr : t.ovr = s.ovr

/-- One accepted frame more: `DIV` counts on, and where it was 0 the frame ticks (42_envelope.md R165; 43_mixer.md R176). -/
theorem AfterFrames.engineStep {s t : State} {i : Nat} (hspt : 0 < s.spt.toNat) (h : AfterFrames s i t) (hroom : i < free s)
    (hrcnt : i < s.rcnt.toNat) : AfterFrames s (i + 1) (engineStep t) := by
  have hfree : free t ≠ 0 := by
    rw [h.room]
    omega
  have hdiv : t.div = 0#16 ↔ i % s.spt.toNat = 0 := by
    rw [← h.div, BitVec.toNat_eq]
    rfl
  rw [engineStep_of_rendered hfree h.pause]
  constructor
  case spt => exact (push_spt _ t).trans h.spt
  case pause => rw [push_of_room hfree]; exact h.pause
  case wrInside => rw [push_of_room hfree]; exact Nat.mod_lt _ t.cap_pos
  case room =>
    refine (free_congr (s := push _ t) rfl rfl rfl).trans ?_
    rw [free_push h.wrInside hfree, h.room, Nat.sub_sub]
  case div =>
    have hlt : t.div.toNat < t.spt.toNat := by
      rw [h.div, h.spt]
      exact Nat.mod_lt _ hspt
    change (nextDiv t).toNat = _
    rw [nextDiv_toNat hlt, h.div, h.spt, Nat.mod_add_mod]
  case ticks =>
    change (tickIfDue t).tickcnt.toNat = _
    rw [tickIfDue_tickcnt, ticksDue_succ hspt]
    simp only [hdiv]
    split
    · rw [BitVec.toNat_add, h.ticks, Nat.mod_add_mod, Nat.add_assoc]
      rfl
    · exact h.ticks
  case rcnt =>
    have hi := h.rcnt
    change (t.rcnt - 1#16).toNat = _
    bv_omega
  case ovr => rw [push_of_room hfree]; exact h.ovr

/-- The induction over the frames of the burst. -/
theorem AfterFrames.run {s : State} (hspt : 0 < s.spt.toNat) {rest : List Turn} (n : Nat) :
    ∀ i t, AfterFrames s i t → i + n ≤ free s → i + n ≤ s.rcnt.toNat → t.sched = List.replicate n .engine ++ rest →
      ∃ u, runSteps n t = .next u ∧ AfterFrames s (i + n) u := by
  induction n with
  | zero => exact fun i t h _ _ _ => ⟨t, rfl, h⟩
  | succ n ih =>
    intro i t h hroom hrcnt hsched
    have hpending : t.rcnt ≠ 0#16 := by
      have hi := h.rcnt
      bv_omega
    have hstep := step_of_engine (nextTurn_of_sched hsched) hpending
    have hdrop : AfterFrames s i { t with sched := t.sched.tail } := { h with }
    have hnext := hdrop.engineStep hspt (by omega) (by omega)
    obtain ⟨u, hrun, hu⟩ := ih (i + 1) _ hnext (by omega) (by omega) (by rw [engineStep_sched, hsched]; rfl)
    exact ⟨u, (runSteps_succ n t _ hstep).trans hrun, by rwa [Nat.add_right_comm, Nat.add_assoc] at hu⟩

/-- Settles O54: after 0 frames the burst stands at the tick boundary it begins at. -/
theorem ticksFallEverySptFrames : Obligations.TicksFallEverySptFrames := by
  intro s n rest hs hplay hdiv hroom hrcnt hsched
  have hspt : 0 < s.spt.toNat := Nat.pos_of_ne_zero fun e => hs.sptNonzero (BitVec.eq_of_toNat_eq e)
  have hstart : AfterFrames s 0 s := by
    refine ⟨rfl, hplay, hs.wrInside, rfl, by rw [hdiv, Nat.zero_mod]; rfl, ?_, rfl, rfl⟩
    rw [Nat.zero_add, Nat.div_eq_of_lt (by omega), Nat.add_zero, Nat.mod_eq_of_lt s.tickcnt.isLt]
  obtain ⟨t, hrun, ht⟩ := AfterFrames.run hspt n 0 s hstart (by omega) (by omega) hsched
  rw [Nat.zero_add] at ht
  exact ⟨t, hrun, ht.div, ht.ticks, ht.rcnt, ht.ovr⟩

end Sys2Proof.Machine

/-! SUPPORT. The mixer family (spec/43_mixer.md): the mix as a truncated quotient, its range and its frame; the render engine's step as
the push of one frame; a paused burst. -/

namespace Sys2Proof.Machine

/-- Settles O34: the counter takes the field, and the record update is the frame. -/
theorem wrRenderLoadsTheBurstCounterAlone : Obligations.WrRenderLoadsTheBurstCounterAlone := by
  refine fun d s => ⟨decode_encode (.wrRender d), ?_⟩
  rw [← field16_eq_setWidth]
  rfl

/-! ### The mix -/

/-- The spec's quotient is Lean's integer division that truncates toward zero (00_scope.md R10). -/
theorem tdiv_eq_tdiv (a : Int) (b : Nat) : tdiv a b = Int.tdiv a b := by
  unfold tdiv
  match a with
  | 0 => simp
  | (n + 1 : Nat) => exact Int.one_mul _
  | Int.negSucc n => exact Int.neg_one_mul _

theorem mixValue_eq_tdiv (bs : List Bank) : mixValue bs = Int.tdiv (mixSum bs) (activeCount bs + 1) :=
  tdiv_eq_tdiv _ _

theorem mixSum_perm {bs cs : List Bank} (h : bs.Perm cs) : mixSum bs = mixSum cs :=
  ((h.filter _).map _).sum_eq

theorem activeCount_perm {bs cs : List Bank} (h : bs.Perm cs) : activeCount bs = activeCount cs :=
  (h.filter _).length_eq

/-- Settles O42: neither the sum nor the count depends on the order. -/
theorem mixIgnoresTheOrderOfChannels : Obligations.MixIgnoresTheOrderOfChannels := by
  intro bs cs h
  rw [mixValue, mixSum_perm h, activeCount_perm h, mixValue]

theorem mixValue_of_all_active {bs : List Bank} (h : ∀ b ∈ bs, b.active = true) :
    mixValue bs = Int.tdiv (bs.map Bank.contribution).sum (bs.length + 1) := by
  rw [mixValue_eq_tdiv, mixSum, activeCount, List.filter_eq_self.mpr h]

/-- With no active channel the sum is empty and the mix is 0 (43_mixer.md R174 (c)). -/
theorem mixValue_of_none_active {bs : List Bank} (h : ∀ b ∈ bs, ¬b.active = true) : mixValue bs = 0 := by
  rw [mixValue_eq_tdiv, mixSum, List.filter_eq_nil_iff.mpr h]
  exact Int.zero_tdiv _

/-- Settles O45: the mixes are the quotients of `2 * x` by 3 and of `x` by 2. -/
theorem twoEqualChannelsKeepHeadroom : Obligations.TwoEqualChannelsKeepHeadroom := by
  intro b c x hb hc hbx hcx hx
  have hpair : mixValue [b, c] = Int.tdiv (2 * x) 3 := by
    rw [mixValue_of_all_active (by simp [hb, hc])]
    simp [hbx, hcx, two_mul]
  have hsingle : ∀ d : Bank, d.active = true → d.contribution = x → mixValue [d] = x / 2 := by
    intro d hd hdx
    rw [mixValue_of_all_active (by simp [hd]), ← Int.tdiv_eq_ediv_of_nonneg hx.le]
    simp [hdx]
  have hquotient : Int.tdiv (2 * x) 3 = 2 * x / 3 := Int.tdiv_eq_ediv_of_nonneg (by omega)
  refine ⟨hpair, ?_, ?_⟩
  · rw [hpair, hquotient]
    omega
  · rw [hpair, hquotient, hsingle b hb hbx, hsingle c hc hcx]
    omega

/-! ### The range of the mix, and its frame -/

/-- Each active channel adds at most its peak of 47 to the sum's size (41_oscillator.md R142). -/
theorem abs_mixSum_le (bs : List Bank) : |mixSum bs| ≤ 47 * activeCount bs := by
  have hrange : ∀ x ∈ (bs.filter Bank.active).map Bank.contribution, -47 ≤ x ∧ x ≤ 47 := by
    intro x hx
    obtain ⟨b, _, rfl⟩ := List.mem_map.mp hx
    exact (contributionStaysInItsRange b).2
  have hlower := List.card_nsmul_le_sum _ (-47) fun x hx => (hrange x hx).1
  have hupper := List.sum_le_card_nsmul _ 47 fun x hx => (hrange x hx).2
  rw [List.length_map, nsmul_eq_mul] at hlower hupper
  rw [abs_le, mixSum, activeCount]
  constructor <;> linarith

/-- A sum of at most 47 for each of `n` parts, divided by `n + 1`, is less than 47 in size. -/
theorem abs_tdiv_le {a : Int} {n : Nat} (h : |a| ≤ 47 * n) : |Int.tdiv a (n + 1)| ≤ 46 := by
  have hquotient : (Int.tdiv a (n + 1)).natAbs = a.natAbs / (n + 1) := Int.natAbs_tdiv a (n + 1)
  rw [Int.abs_eq_natAbs] at h ⊢
  have hlt : a.natAbs / (n + 1) < 47 := Nat.div_lt_of_lt_mul (by omega)
  omega

theorem abs_mixValue_le (bs : List Bank) : |mixValue bs| ≤ 46 := by
  rw [mixValue_eq_tdiv]
  exact abs_tdiv_le (abs_mixSum_le bs)

theorem packFrame_left (m : Int) : (packFrame m).extractLsb' 0 16 = BitVec.ofInt 16 m :=
  BitVec.extractLsb'_append_eq_right

theorem packFrame_right (m : Int) : (packFrame m).extractLsb' 16 16 = BitVec.ofInt 16 m :=
  BitVec.extractLsb'_append_eq_left

/-- Settles O43: a sum of `A` contributions is less than 47 times `A + 1`, and a quotient below 47 fits a sample. -/
theorem mixedSampleIsTheTruncatedMeanWithHeadroom : Obligations.MixedSampleIsTheTruncatedMeanWithHeadroom := by
  intro bs
  obtain ⟨hlower, hupper⟩ := abs_le.mp (abs_mixValue_le bs)
  have hfits : (BitVec.ofInt 16 (mixValue bs)).toInt = mixValue bs :=
    BitVec.toInt_ofInt_eq_self (by decide) (by omega) (by omega)
  refine ⟨?_, hlower, hupper, by rw [packFrame_left, hfits], by rw [packFrame_right, hfits]⟩
  rw [List.countP_eq_length_filter]
  exact mixValue_eq_tdiv bs

/-! ### The render engine's step -/

@[simp] theorem push_pause (f : Word) (s : State) : (push f s).pause = s.pause := by rw [push_eq]
@[simp] theorem push_tickcnt (f : Word) (s : State) : (push f s).tickcnt = s.tickcnt := by rw [push_eq]
@[simp] theorem deliver_pause (s : State) : (deliver s).pause = s.pause := by rw [deliver_eq]
@[simp] theorem deliver_tickcnt (s : State) : (deliver s).tickcnt = s.tickcnt := by rw [deliver_eq]
@[simp] theorem deliver_banks (s : State) : (deliver s).banks = s.banks := by rw [deliver_eq]

/-- The render engine's step where it renders nothing: a push of silence, rejected on a full buffer (43_mixer.md R176, R177). -/
theorem engineStep_of_silent {s : State} (h : free s = 0 ∨ s.pause = true) :
    engineStep s = { push 0#32 s with rcnt := s.rcnt - 1#16 } := by
  rcases engineStep_cases s with ⟨_, e⟩ | ⟨hroom, hplay, _⟩
  · exact e
  · rcases h with hfull | hpaused
    · exact absurd hfull hroom
    · exact absurd (hplay.symm.trans hpaused) Bool.false_ne_true

section dropTurn

@[simp] theorem push_dropTurn (f : Word) (s : State) : push f (dropTurn s) = dropTurn (push f s) := by
  by_cases h : free s = 0
  · rw [push_of_full (s := dropTurn s) h, push_of_full h]
    rfl
  · rw [push_of_room (s := dropTurn s) h, push_of_room h]
    rfl

@[simp] theorem tickIfDue_dropTurn (s : State) : tickIfDue (dropTurn s) = dropTurn (tickIfDue s) :=
  (apply_ite dropTurn (s.div = 0#16) (tickStep s) s).symm

/-- The render engine's step does not look at the schedule. -/
theorem engineStep_dropTurn (s : State) : engineStep (dropTurn s) = dropTurn (engineStep s) := by
  rcases engineStep_cases s with ⟨h, e⟩ | ⟨hroom, hplay, e⟩
  · rw [engineStep_of_silent (s := dropTurn s) h, push_dropTurn, e]
    rfl
  · rw [engineStep_of_rendered (s := dropTurn s) hroom hplay, push_dropTurn, tickIfDue_dropTurn, e]
    rfl

end dropTurn

/-- The step on the render engine's turn, while a burst is pending: its step, and the turn taken (43_mixer.md R177). -/
theorem step_eq_engineStep {s : State} (hn : nextTurn s = some .engine) (hr : s.rcnt ≠ 0#16) :
    step s = .next (dropTurn (engineStep s)) := by
  rw [← engineStep_dropTurn]
  exact step_of_engine hn hr

/-- Settles O35: each branch is a push, rejected or accepted; the rendered one with the banks and the counter after the tick that is
due. -/
theorem engineStepRendersOneFrame : Obligations.EngineStepRendersOneFrame := by
  intro s hn hr
  rw [step_eq_engineStep hn hr]
  refine ⟨fun hfull => ?_, fun hroom hpaused => ?_, fun hroom hplay bs hbs => ?_⟩ <;> refine congrArg Host.Outcome.next ?_
  · rw [engineStep_of_silent (.inl hfull), push_of_full hfull]
    rfl
  · rw [engineStep_of_silent (.inr hpaused), push_of_room hroom]
    rfl
  · rw [engineStep_of_rendered hroom hplay, push_of_room hroom, tickIfDue_banks, tickIfDue_tickcnt, ← hbs]
    rfl

/-- The frame the render engine's step offers to the ring: silence while paused, else the mix (43_mixer.md R176). -/
def engineFrame (s : State) : Word :=
  if s.pause = true then 0#32 else packFrame (mixValue ((tickIfDue s).banks.map Bank.advance))

/-- The storage and the write index after the render engine's step are those after the push of its frame; on a full buffer the push
of whatever frame is rejected. -/
theorem engineStep_ring (s : State) :
    (engineStep s).mem = (push (engineFrame s) s).mem ∧ (engineStep s).wr = (push (engineFrame s) s).wr := by
  by_cases hfull : free s = 0
  · rw [engineStep_of_silent (.inl hfull), push_of_full hfull, push_of_full hfull]
    exact ⟨rfl, rfl⟩
  · cases hp : s.pause with
    | true =>
      rw [engineStep_of_silent (.inr hp), engineFrame, if_pos hp]
      exact ⟨rfl, rfl⟩
    | false =>
      rw [engineStep_of_rendered hfull hp, engineFrame, if_neg (Bool.eq_false_iff.mp hp)]
      exact ⟨rfl, rfl⟩

/-- Both samples of the frame are the same (43_mixer.md R173). -/
theorem engineFrame_halves (s : State) : (engineFrame s).extractLsb' 16 16 = (engineFrame s).extractLsb' 0 16 := by
  unfold engineFrame
  split
  · rfl
  · rw [packFrame_left, packFrame_right]

theorem active_of_mem_tickIfDue_advance {s : State} {b : Bank} (h : b ∈ (tickIfDue s).banks.map Bank.advance) :
    ∃ c ∈ s.banks, b.active = c.active := by
  obtain ⟨d, hd, rfl⟩ := List.mem_map.mp h
  rw [tickIfDue_banks] at hd
  split at hd
  · obtain ⟨c, hc, rfl⟩ := List.mem_map.mp hd
    exact ⟨c, hc, by rw [Bank.advance_active, Bank.tick_active]⟩
  · exact ⟨d, hd, Bank.advance_active d⟩

/-- Neither the tick nor the phase advance makes a channel active, so the frame is silent (43_mixer.md R174 (c), R179). -/
theorem engineFrame_of_silent {s : State} (h : s.pause = true ∨ ∀ b ∈ s.banks, b.en = false ∨ b.inc = 0#16) :
    engineFrame s = 0#32 := by
  unfold engineFrame
  split
  next => rfl
  next hplay =>
    have hinactive : ∀ b ∈ (tickIfDue s).banks.map Bank.advance, ¬b.active = true := by
      intro b hb hactive
      obtain ⟨c, hc, hbc⟩ := active_of_mem_tickIfDue_advance hb
      obtain ⟨hen, hinc⟩ := c.active_iff.mp (hbc ▸ hactive)
      rcases h.resolve_left hplay c hc with hdisabled | hzero
      · exact Bool.false_ne_true (hdisabled.symm.trans hen)
      · exact hinc hzero
    rw [mixValue_of_none_active hinactive]
    rfl

/-- Settles O44: the frame pushed is 0, and a push writes the slot at `WR` alone. -/
theorem silenceIsExactlyZero : Obligations.SilenceIsExactlyZero := by
  intro s hs hn hr hroom hsilent
  obtain ⟨hmem, hwr⟩ := engineStep_ring s
  rw [engineFrame_of_silent hsilent, push_of_room hroom] at hmem hwr
  refine ⟨_, step_eq_engineStep hn hr, ?_⟩
  rw [dropTurn_mem, dropTurn_wr, hmem, hwr]
  refine ⟨?_, rfl, fun a ha => ?_⟩
  · rw [Memory.read_write hs.memWf, if_pos rfl]
  · rw [Memory.read_write hs.memWf, if_neg ha]

/-- The queue after the render engine's step is the queue after the push of its frame. -/
theorem queue_engineStep (s : State) : queue (engineStep s) = queue (push (engineFrame s) s) := by
  obtain ⟨hmem, hwr⟩ := engineStep_ring s
  refine queue_congr hmem hwr ?_ ?_
  · rw [engineStep_frame, push_rd]
  · rw [engineStep_frame, push_k]

/-- Settles O49: the push of the engine's frame, rejected or accepted. -/
theorem engineStepQueuesOneFrameInOrder : Obligations.EngineStepQueuesOneFrameInOrder := by
  intro s hs hn hr
  have hqueue : queue (dropTurn (engineStep s)) = queue (push (engineFrame s) s) := queue_engineStep s
  refine ⟨_, step_eq_engineStep hn hr, fun hfull => ?_, fun hroom => ⟨engineFrame s, ?_, engineFrame_halves s⟩⟩
  · rw [hqueue, push_of_full hfull]
    exact queue_congr rfl rfl rfl rfl
  · rw [hqueue, queue_push hs.memWf hs.wrInside hroom]

/-! ### A paused burst -/

/-- `t` has the channels, `DIV`, `TICKCNT` and `PAUSE` of `s`: what a paused burst freezes (43_mixer.md R179). -/
structure Frozen (s t : State) : Prop where
  banks : t.banks = s.banks
  div : t.div = s.div
  tickcnt : t.tickcnt = s.tickcnt
  pause : t.pause = s.pause

theorem Frozen.trans {s t u : State} (h : Frozen s t) (h' : Frozen t u) : Frozen s u where
  banks := h'.banks.trans h.banks
  div := h'.div.trans h.div
  tickcnt := h'.tickcnt.trans h.tickcnt
  pause := h'.pause.trans h.pause

theorem frozen_push (f : Word) (s : State) : Frozen s (push f s) where
  banks := push_banks f s
  div := push_div f s
  tickcnt := push_tickcnt f s
  pause := push_pause f s

theorem frozen_deliver (s : State) : Frozen s (deliver s) where
  banks := deliver_banks s
  div := deliver_div s
  tickcnt := deliver_tickcnt s
  pause := deliver_pause s

/-- While paused, the render engine's step only pushes silence (43_mixer.md R176). -/
theorem frozen_engineStep {s : State} (h : s.pause = true) : Frozen s (engineStep s) := by
  rw [engineStep_of_silent (.inr h)]
  exact { frozen_push 0#32 s with }

/-- While paused, a step on a turn of the render engine or of the consumer freezes the sound. -/
theorem frozen_step {s t : State} (hpause : s.pause = true) (hu : nextTurn s = some .engine ∨ nextTurn s = some .consumer)
    (h : step s = .next t) : Frozen s t := by
  rcases step_cases h with rfl | ⟨_, _, _, hn, _⟩ | ⟨_, _, _, hn, _⟩ | ⟨_, _, rfl⟩ | ⟨n, _, _, rfl⟩ | ⟨hn, _⟩
  case inl => exact ⟨rfl, rfl, rfl, rfl⟩
  case inr.inr.inr.inl => exact { frozen_engineStep (s := dropTurn s) hpause with }
  case inr.inr.inr.inr.inl => exact { frozen_deliver { dropTurn s with pops := n } with }
  all_goals simp [hn] at hu

/-- The induction over the turns of a paused burst, the render engine's and the consumer's in any order. -/
theorem frozen_run {l rest : List Turn} (hl : ∀ u ∈ l, u = .engine ∨ u = .consumer) :
    ∀ s, s.pause = true → s.sched = l ++ rest → ∃ t, runSteps l.length s = .next t ∧ Frozen s t := by
  induction l with
  | nil => exact fun s _ _ => ⟨s, rfl, rfl, rfl, rfl, rfl⟩
  | cons u l ih =>
    intro s hpause hsched
    obtain ⟨hu, hl⟩ := List.forall_mem_cons.mp hl
    obtain ⟨t, hstep, _, _, hrest⟩ := step_of_engine_or_consumer hsched hu
    have hturn : nextTurn s = some .engine ∨ nextTurn s = some .consumer := by
      rw [nextTurn_of_sched hsched]
      exact hu.imp (congrArg some) (congrArg some)
    have ht : Frozen s t := frozen_step hpause hturn hstep
    obtain ⟨v, hrun, hv⟩ := ih hl t (ht.pause.trans hpause) hrest
    exact ⟨v, (runSteps_succ l.length s t hstep).trans hrun, ht.trans hv⟩

/-- Settles O53: what each turn of the burst freezes, the whole burst freezes. -/
theorem pausedBurstFreezesTheSound : Obligations.PausedBurstFreezesTheSound := by
  intro s l rest hpause hsched hl
  obtain ⟨t, hrun, ht⟩ := frozen_run hl s hpause hsched
  exact ⟨t, hrun, ht.banks, ht.div, ht.tickcnt, ht.pause.trans hpause⟩

end Sys2Proof.Machine

/-! SUPPORT. The ring buffer family (spec/44_ring_buffer.md): `OCC` as an integer difference of the indices, its registers, a push and
a pop in every state, and what a run without reset does to the queue and to `RD`. -/

namespace Sys2Proof.Machine

/-! ### `OCC` and `FREE` as integers -/

theorem State.cap_cast (s : State) : (s.cap : Int) = 2 ^ s.k := Nat.cast_pow 2 s.k

/-- `OCC = (WR - RD) mod CAP` in integers (44_ring_buffer.md R190). -/
theorem occ_cast (s : State) : (occ s : Int) = ((s.wr : Int) - s.rd) % s.cap :=
  Int.toNat_of_nonneg (Int.emod_nonneg _ (Int.natCast_ne_zero.mpr s.cap_pos.ne'))

/-- `FREE = CAP - 1 - OCC` in integers (44_ring_buffer.md R190). -/
theorem free_cast (s : State) : (free s : Int) = s.cap - 1 - occ s := by
  have hsum := free_add_occ s
  have hcap := s.cap_pos
  omega

theorem occ_modEq (s : State) : (occ s : Int) ≡ s.wr - s.rd [ZMOD s.cap] :=
  (occ_cast s).symm ▸ Int.mod_modEq _ _

/-- `OCC` is the one value below `CAP` congruent to `WR - RD`. -/
theorem occ_eq_of_modEq {s : State} {n : Nat} (hn : n < s.cap) (h : (s.wr : Int) - s.rd ≡ n [ZMOD s.cap]) : occ s = n := by
  have hocc : (occ s : Int) = n := by
    rw [occ_cast, h, Int.emod_eq_of_lt (by omega) (by omega)]
  exact_mod_cast hocc

/-- An index moved on by one slot is one larger modulo `CAP`. -/
theorem nextSlot_modEq (a n : Nat) : (((a + 1) % n : Nat) : Int) ≡ a + 1 [ZMOD n] := by
  push_cast
  exact Int.mod_modEq _ _

/-- Settles O20: each register answers its value as a word; `OCC` and `FREE` are the integer formulas. -/
theorem ringRegistersReadTheirValues : Obligations.RingRegistersReadTheirValues := by
  intro d s
  have hocc : (occ s : Int) = ((s.wr : Int) - s.rd) % 2 ^ s.k := by rw [occ_cast, s.cap_cast]
  have hfree : (free s : Int) = 2 ^ s.k - 1 - ((s.wr : Int) - s.rd) % 2 ^ s.k := by rw [free_cast, hocc, s.cap_cast]
  refine
    ⟨decode_of_encode_eq_rdGlobal rfl d, rfl, decode_of_encode_eq_rdGlobal rfl d, rfl, decode_of_encode_eq_rdGlobal rfl d, rfl,
      decode_of_encode_eq_rdGlobal rfl d, answers_of_eq rfl ?readsOcc,
      decode_of_encode_eq_rdGlobal rfl d, answers_of_eq rfl ?readsFree⟩
  case readsOcc => rw [← hocc, BitVec.ofInt_natCast]
  case readsFree => rw [← hfree, BitVec.ofInt_natCast]

/-! ### A push and a pop, in every state -/

/-- An accepted push occupies one slot more, wherever the indices stand (44_ring_buffer.md R191). -/
theorem occ_push_of_room {s : State} (h : free s ≠ 0) (f : Word) : occ (push f s) = occ s + 1 := by
  have hfree := free_add_occ s
  rw [push_of_room h]
  refine occ_eq_of_modEq (by change _ < s.cap; omega) ?_
  calc (((s.wr + 1) % s.cap : Nat) : Int) - s.rd
      ≡ s.wr + 1 - s.rd [ZMOD s.cap] := (nextSlot_modEq s.wr s.cap).sub_right _
    _ = s.wr - s.rd + 1 := by ring
    _ ≡ occ s + 1 [ZMOD s.cap] := (occ_modEq s).symm.add_right 1
    _ = (occ s + 1 : Nat) := by push_cast; rfl

/-- A delivered frame frees one slot, wherever the indices stand (44_ring_buffer.md R195). -/
theorem occ_deliver_of_queued {s : State} (h : occ s ≠ 0) : occ (deliver s) + 1 = occ s := by
  have hlt := occ_lt_cap s
  obtain ⟨n, hn⟩ := Nat.exists_eq_succ_of_ne_zero h
  rw [hn, deliver_of_queued h]
  refine congrArg Nat.succ (occ_eq_of_modEq (by change _ < s.cap; omega) ?_)
  calc (s.wr : Int) - ((s.rd + 1) % s.cap : Nat)
      ≡ s.wr - (s.rd + 1) [ZMOD s.cap] := (nextSlot_modEq s.rd s.cap).sub_left _
    _ = s.wr - s.rd - 1 := by ring
    _ ≡ occ s - 1 [ZMOD s.cap] := (occ_modEq s).symm.sub_right 1
    _ = n := by omega

/-- Settles O46: the rejected push sets the flag; the accepted one writes slot `WR` alone. -/
theorem rbPushQueuesOrIsRejected : Obligations.RbPushQueuesOrIsRejected := by
  intro d s hm
  refine ⟨decode_encode (.wrRbPush d), fun hfull => congrArg Host.Outcome.next (push_of_full hfull d), fun hroom => ?_⟩
  have hocc := occ_push_of_room hroom d
  have hfree := free_add_occ (push d s)
  have hsum := free_add_occ s
  rw [push_cap] at hfree
  have hmem : (push d s).mem = s.mem.write s.wr d := by rw [push_of_room hroom]
  refine ⟨push d s, rfl, ?_, ?_, ?_, fun a ha => ?_, hocc, by omega⟩
  · rw [push_of_room hroom]
    rfl
  · rw [hmem]
    exact Memory.write_wf hm s.wr d
  · rw [hmem, Memory.read_write hm, if_pos rfl]
  · rw [hmem, Memory.read_write hm, if_neg ha]

/-- Settles O47: the two branches of the delivery. -/
theorem popDeliversOrHoldsTheLastFrame : Obligations.PopDeliversOrHoldsTheLastFrame := by
  intro s
  refine ⟨rfl, fun hempty => congrArg Host.Outcome.next (deliver_of_empty hempty), fun hqueued => ?_⟩
  have hocc := occ_deliver_of_queued hqueued
  have hfree := free_add_occ (deliver s)
  have hsum := free_add_occ s
  rw [deliver_cap] at hfree
  exact ⟨deliver s, rfl, deliver_of_queued hqueued, hocc, by omega⟩

/-! ### What a run does to the ring -/

@[simp] theorem push_sched (f : Word) (s : State) : (push f s).sched = s.sched := by rw [push_eq]

/-- From `s` to `t` the frames `l` have been pushed, each accepted, and the `p` oldest frames have been popped (44_ring_buffer.md R191,
R195; 70_reset_and_hazards.md R292). -/
structure RingRun (s : State) (l : List Word) (p : Nat) (t : State) : Prop where
  k : t.k = s.k
  rd : (t.rd : Int) - s.rd ≡ p [ZMOD s.cap]
  popped : p ≤ (queue s ++ l).length
  queue : queue t = (queue s ++ l).drop p
  ovr : t.ovr = true → s.ovr = true

/-- Where nothing touches the ring and no overrun is recorded, nothing is pushed and nothing popped. -/
theorem RingRun.of_kept {s t : State} (hk : t.k = s.k) (hmem : t.mem = s.mem) (hwr : t.wr = s.wr) (hrd : t.rd = s.rd)
    (hovr : t.ovr = true → s.ovr = true) : RingRun s [] 0 t where
  k := hk
  rd := by rw [hrd, sub_self]; rfl
  popped := Nat.zero_le _
  queue := by rw [queue_congr hmem hwr hrd hk, List.append_nil, List.drop_zero]
  ovr := hovr

theorem RingRun.trans {s t u : State} {l m : List Word} {p q : Nat} (h : RingRun s l p t) (h' : RingRun t m q u) :
    RingRun s (l ++ m) (p + q) u where
  k := h'.k.trans h.k
  rd := by
    have hcap : t.cap = s.cap := congrArg (2 ^ ·) h.k
    have hsum := h.rd.add (hcap ▸ h'.rd)
    rwa [sub_add_sub_cancel', ← Nat.cast_add] at hsum
  popped := by
    have hp := h.popped
    have hq := h'.popped
    rw [List.length_append, h.queue, List.length_drop] at hq
    rw [← List.append_assoc, List.length_append]
    omega
  queue := by
    rw [h'.queue, h.queue, ← List.drop_append_of_le_length h.popped, List.drop_drop, List.append_assoc]
  ovr := h.ovr ∘ h'.ovr

/-- The room grows by the frames popped less those pushed (44_ring_buffer.md R198). -/
theorem RingRun.free_add {s t : State} {l : List Word} {p : Nat} (h : RingRun s l p t) : free t + l.length = free s + p := by
  have hpopped := h.popped
  have hocc := congrArg List.length h.queue
  have hsum := free_add_occ s
  have hsum' := free_add_occ t
  have hcap : t.cap = s.cap := congrArg (2 ^ ·) h.k
  rw [List.length_drop, List.length_append, length_queue, length_queue] at hocc
  rw [List.length_append, length_queue] at hpopped
  omega

/-- While no more is pushed than there was room for, fewer frames than `CAP` can be popped. -/
theorem RingRun.popped_lt_cap {s t : State} {l : List Word} {p : Nat} (h : RingRun s l p t) (hroom : l.length ≤ free s) :
    p < s.cap := by
  have hpopped := h.popped
  have hsum := free_add_occ s
  have hcap := s.cap_pos
  rw [List.length_append, length_queue] at hpopped
  omega

/-- Two readings of `RB_RD` differ, modulo `CAP`, by the frames popped (70_reset_and_hazards.md R292). -/
theorem RingRun.rd_sub_emod {s t : State} {l : List Word} {p : Nat} (h : RingRun s l p t) (hroom : l.length ≤ free s) :
    ((t.rd : Int) - s.rd) % 2 ^ s.k = p := by
  have hp := h.popped_lt_cap hroom
  rw [← s.cap_cast, h.rd, Int.emod_eq_of_lt (by omega) (by omega)]

theorem RingRun.push {s : State} (hs : Sound s) (hroom : free s ≠ 0) (f : Word) : RingRun s [f] 0 (push f s) where
  k := push_k f s
  rd := by rw [push_rd, sub_self]; rfl
  popped := Nat.zero_le _
  queue := by rw [queue_push hs.memWf hs.wrInside hroom, List.drop_zero]
  ovr := by rw [push_of_room hroom]; exact id

theorem RingRun.deliver {s : State} (hs : Sound s) (hqueued : occ s ≠ 0) : RingRun s [] 1 (deliver s) where
  k := deliver_k s
  rd := by
    have hnext := (nextSlot_modEq s.rd s.cap).sub_right (s.rd : Int)
    rw [deliver_of_queued hqueued]
    rwa [add_sub_cancel_left] at hnext
  popped := by
    rw [List.append_nil, length_queue]
    exact Nat.one_le_iff_ne_zero.mpr hqueued
  queue := by rw [List.append_nil, queue_eq_cons_deliver hs.wrInside hs.rdInside hqueued, List.drop_one, List.tail_cons]
  ovr := by rw [deliver_of_queued hqueued]; exact id

/-- The render engine's step, where there is room, pushes its frame (43_mixer.md R176). -/
theorem RingRun.engineStep {s : State} (hs : Sound s) (hroom : free s ≠ 0) : RingRun s [engineFrame s] 0 (engineStep s) := by
  have hpush := RingRun.push hs hroom (engineFrame s)
  have hovr : (Machine.engineStep s).ovr = s.ovr := by
    rcases engineStep_cases s with ⟨_, e⟩ | ⟨_, _, e⟩ <;> rw [e, push_of_room hroom]
  exact
    { k := by rw [engineStep_frame]
      rd := by rw [engineStep_frame, sub_self]; rfl
      popped := Nat.zero_le _
      queue := (queue_engineStep s).trans hpush.queue
      ovr := by rw [hovr]; exact id }

/-! ### The ring along a step -/

/-- The outcome `o`, reached from `s`, is a next state before which `a` frames have been pushed and `p` popped. -/
def RunsRing (s : State) (a p : Nat) (o : Host.Outcome State Fault Refusal) : Prop :=
  ∃ t l, o = .next t ∧ l.length = a ∧ RingRun s l p t

/-- Where nothing touches the ring and no overrun is recorded, nothing is pushed and nothing popped. -/
theorem RunsRing.of_kept {s t : State} (hk : t.k = s.k) (hmem : t.mem = s.mem) (hwr : t.wr = s.wr) (hrd : t.rd = s.rd)
    (hovr : t.ovr = true → s.ovr = true) : RunsRing s 0 0 (.next t) :=
  ⟨t, [], rfl, rfl, .of_kept hk hmem hwr hrd hovr⟩

/-- A turn that passes leaves the ring alone (20_memory.md R71). -/
theorem RunsRing.passed (s : State) : RunsRing s 0 0 (.next (dropTurn s)) := .of_kept rfl rfl rfl rfl id

/-- The requests waiting at the ports and the schedule are no part of the ring. -/
theorem RunsRing.of_ports {s : State} {a p : Nat} {o : Host.Outcome State Fault Refusal} (bus : List BusWord) (pops : Nat)
    (sched : List Turn) (h : RunsRing { s with bus := bus, pops := pops, sched := sched } a p o) : RunsRing s a p o := by
  obtain ⟨t, l, ho, hl, hrun⟩ := h
  exact ⟨t, l, ho, hl, { hrun with }⟩

/-- The invariant says nothing about the ports or the schedule. -/
theorem Sound.ports {s : State} (hs : Sound s) (bus : List BusWord) (pops : Nat) (sched : List Turn) :
    Sound { s with bus := bus, pops := pops, sched := sched } := { hs with }

/-- How many frames a decoded transaction attempts to push (70_reset_and_hazards.md R292). -/
def offeredFrames : Except Reject Instr → Nat
  | .ok (.wrRbPush _) => 1
  | _ => 0

theorem pushAttempts_of_host {s : State} {w : BusWord} {rest : List BusWord} (hn : nextTurn s = some .host) (hr : s.rcnt = 0#16)
    (hb : s.bus = w :: rest) : pushAttempts s = offeredFrames (decode (.bus w)) := by
  simp only [pushAttempts, hn, hb, hr, if_true]
  rfl

/-- A host whose port is held, or that waits with nothing, attempts no push (20_memory.md R72). -/
theorem pushAttempts_of_idle_host {s : State} (hn : nextTurn s = some .host) (h : s.rcnt ≠ 0#16 ∨ s.bus = []) :
    pushAttempts s = 0 := by
  rcases h with hheld | hnone
  · simp only [pushAttempts, hn, if_neg hheld]
    split
    next => rfl
    next => split <;> rfl
  · simp only [pushAttempts, hn, hnone]

theorem step_of_idle_host {s : State} (hn : nextTurn s = some .host) (h : s.rcnt ≠ 0#16 ∨ s.bus = []) :
    step s = .next (dropTurn s) := by
  refine (step_of_nextTurn hn).trans ?_
  rcases hostTurn_cases (dropTurn s) with ⟨_, e⟩ | ⟨_, _, e⟩ | ⟨w, rest, i, hr, hb, _⟩ | ⟨w, rest, e, hr, hb, _⟩
  · exact e
  · exact e
  all_goals
    rcases h with hheld | hnone
    · exact absurd hr hheld
    · exact absurd (hb.symm.trans hnone) (List.cons_ne_nil w rest)

theorem step_of_idle_consumer {s : State} (hn : nextTurn s = some .consumer) (h : s.pops = 0) : step s = .next (dropTurn s) := by
  refine (step_of_nextTurn hn).trans ?_
  rcases consumerTurn_cases (dropTurn s) with ⟨_, e⟩ | ⟨n, hp, _⟩
  · exact e
  · exact absurd (h.symm.trans hp) (Nat.succ_ne_zero n).symm

theorem pushAttempts_of_engine {s : State} (hn : nextTurn s = some .engine) :
    pushAttempts s = if s.rcnt = 0#16 then 0 else 1 := by
  simp only [pushAttempts, hn]

/-- Only the consumer's step pops (44_ring_buffer.md R195). -/
theorem framesPopped_of_ne_consumer {s : State} (h : nextTurn s ≠ some .consumer) : framesPopped s = 0 :=
  if_neg fun hc => h hc.1

/-- No transaction is a pop request, which is the consumer port's (30_encoding.md R80). -/
theorem decode_bus_ne_pop (w : BusWord) : decode (.bus w) ≠ .ok .pop := by
  intro h
  exact absurd (encode_of_decodeAccess h) (by simp [encode])

/-- An operation of the producer port does nothing to the ring but the push it may stand for (44_ring_buffer.md R193). -/
theorem RunsRing.exec {s : State} (hs : Sound s) {i : Instr} (hi : i ≠ .pop) (hroom : offeredFrames (.ok i) ≤ free s) :
    RunsRing s (offeredFrames (.ok i)) 0 (exec i s) := by
  cases i with
  | pop => exact absurd rfl hi
  | wrRbPush d => exact ⟨_, [d], rfl, rfl, .push hs (Nat.one_le_iff_ne_zero.mp hroom) d⟩
  | wrStatus d => exact .of_kept rfl rfl rfl rfl fun h => (Bool.and_eq_true_iff.mp h).1
  | wrSpt d =>
    by_cases hzero : d.setWidth 16 = 0#16
    · exact exec_wrSpt_of_zero hzero s ▸ .of_kept rfl rfl rfl rfl id
    · exact exec_wrSpt_of_ne_zero hzero s ▸ .of_kept rfl rfl rfl rfl id
  | wrCtrl | wrRender | rdCtrl | rdStatus | rdSpt | rdDiv | rdTickcnt | rdRbCap | rdRbWr | rdRbRd | rdRbOcc | rdRbFree
  | rdChEn | rdChWave | rdChVol | rdChAtk | rdChRls | rdChInc | rdChAcc | rdChLevel | rdChStat
  | wrChEn | wrChWave | wrChVol | wrChAtk | wrChRls | wrChInc | wrChNote | wrChKeyoff | wrChReset =>
    exact .of_kept rfl rfl rfl rfl id

theorem RunsRing.perform {s : State} (hs : Sound s) (w : BusWord) (hroom : offeredFrames (decode (.bus w)) ≤ free s) :
    RunsRing s (offeredFrames (decode (.bus w))) 0 (perform (.bus w) s) := by
  cases hd : decode (.bus w) with
  | ok i =>
    rw [perform_of_ok hd]
    exact .exec hs (fun hpop => decode_bus_ne_pop w (hpop ▸ hd)) (hd ▸ hroom)
  | error e =>
    rw [perform_of_error hd]
    rcases unmatched_eq e s with hu | hu <;> rw [hu] <;> exact .of_kept rfl rfl rfl rfl id

/-- The host's turn runs its oldest transaction, or passes (20_memory.md R70, R72). -/
theorem RunsRing.of_host {s : State} (hs : Sound s) (hn : nextTurn s = some .host) (hroom : pushAttempts s ≤ free s) :
    RunsRing s (pushAttempts s) 0 (step s) := by
  by_cases hidle : s.rcnt ≠ 0#16 ∨ s.bus = []
  · rw [pushAttempts_of_idle_host hn hidle, step_of_idle_host hn hidle]
    exact .passed s
  · obtain ⟨hr, hb⟩ := not_or.mp hidle
    obtain ⟨w, rest, hb⟩ := List.exists_cons_of_ne_nil hb
    rw [pushAttempts_of_host hn (not_not.mp hr) hb] at hroom ⊢
    rw [step_of_host hn (not_not.mp hr) hb]
    exact .of_ports rest s.pops s.sched.tail (.perform (hs.ports ..) w hroom)

/-- The render engine's turn attempts one push while a burst is pending, and passes else (43_mixer.md R177). -/
theorem RunsRing.of_engine {s : State} (hs : Sound s) (hn : nextTurn s = some .engine) (hroom : pushAttempts s ≤ free s) :
    RunsRing s (pushAttempts s) 0 (step s) := by
  rw [pushAttempts_of_engine hn] at hroom ⊢
  by_cases hr : s.rcnt = 0#16
  · rw [if_pos hr, hostIsHeldWhileABurstIsPending.2 s hr hn]
    exact .passed s
  · rw [if_neg hr] at hroom ⊢
    rw [step_eq_engineStep hn hr]
    exact ⟨_, [engineFrame s], rfl, rfl, { RingRun.engineStep hs (Nat.one_le_iff_ne_zero.mp hroom) with }⟩

@[simp] theorem deliver_pops (s : State) : (deliver s).pops = s.pops := by rw [deliver_eq]

theorem deliver_udr_of_queued {s : State} (h : occ s ≠ 0) : (deliver s).udr = s.udr := by rw [deliver_of_queued h]

/-- A pop of an empty buffer leaves the ring alone (44_ring_buffer.md R196). -/
theorem RingRun.deliver_of_empty {s : State} (h : occ s = 0) : RingRun s [] 0 (Machine.deliver s) := by
  rw [Machine.deliver_of_empty h]
  exact .of_kept rfl rfl rfl rfl id

/-- The consumer's step on a buffer that is not empty: one frame popped and no underrun (44_ring_buffer.md R195). -/
theorem step_of_queued_consumer {s : State} {n : Nat} (hs : Sound s) (hn : nextTurn s = some .consumer) (hp : s.pops = n + 1)
    (hqueued : occ s ≠ 0) : ∃ t, step s = .next t ∧ RingRun s [] 1 t ∧ t.udr = s.udr ∧ t.pops = n := by
  have hrun := RingRun.deliver (hs.ports s.bus n s.sched.tail) hqueued
  exact ⟨_, step_of_consumer hn hp, { hrun with }, deliver_udr_of_queued hqueued, deliver_pops _⟩

/-- The consumer's turn pops where a pop waits and the buffer is not empty (44_ring_buffer.md R195, R196). -/
theorem RunsRing.of_consumer {s : State} (hs : Sound s) (hn : nextTurn s = some .consumer) :
    RunsRing s 0 (framesPopped s) (step s) := by
  cases hp : s.pops with
  | zero =>
    rw [framesPopped, if_neg fun ⟨_, hwaits, _⟩ => hwaits hp, step_of_idle_consumer hn hp]
    exact .passed s
  | succ n =>
    by_cases hempty : occ s = 0
    · rw [framesPopped, if_neg fun ⟨_, _, hqueued⟩ => hqueued hempty, step_of_consumer hn hp]
      exact .of_ports s.bus n s.sched.tail ⟨_, [], rfl, rfl, .deliver_of_empty hempty⟩
    · obtain ⟨t, hstep, ht, _⟩ := step_of_queued_consumer hs hn hp hempty
      rw [framesPopped, if_pos ⟨hn, hp ▸ Nat.succ_ne_zero n, hempty⟩]
      exact ⟨t, [], hstep, rfl, ht⟩

/-- A step other than reset pushes what it attempts, where there is room, and pops what it pops. -/
theorem RunsRing.step {s : State} (hs : Sound s) (hreset : nextTurn s ≠ some .reset) (hroom : pushAttempts s ≤ free s) :
    RunsRing s (pushAttempts s) (framesPopped s) (step s) := by
  cases hn : nextTurn s with
  | none =>
    have ha : pushAttempts s = 0 := by simp only [pushAttempts, hn]
    have hp : framesPopped s = 0 := framesPopped_of_ne_consumer (by simp [hn])
    have hstep : Machine.step s = .next (dropTurn s) := by rw [Machine.step, hn]; rfl
    rw [ha, hp, hstep]
    exact .passed s
  | some u =>
    cases u with
    | host => rw [framesPopped_of_ne_consumer (by simp [hn])]; exact .of_host hs hn hroom
    | engine => rw [framesPopped_of_ne_consumer (by simp [hn])]; exact .of_engine hs hn hroom
    | consumer =>
      have ha : pushAttempts s = 0 := by simp only [pushAttempts, hn]
      rw [ha]
      exact .of_consumer hs hn
    | reset => exact absurd hn hreset

theorem framesPopped_le_one (s : State) : framesPopped s ≤ 1 := by
  unfold framesPopped
  split
  · exact le_rfl
  · exact Nat.zero_le 1

/-- Settles O51: a consumer step pushes nothing and pops at most one frame. -/
theorem consumerStepNeverLowersTheRoom : Obligations.ConsumerStepNeverLowersTheRoom := by
  intro s t hs hn h
  obtain ⟨u, l, hstep, hl, hrun⟩ := RunsRing.of_consumer hs hn
  obtain rfl : u = t := Host.Outcome.next.inj (hstep.symm.trans h)
  have hfree := hrun.free_add
  have hpopped := framesPopped_le_one s
  omega

/-! ### Runs of several steps -/

/-- An operation leaves the schedule alone. -/
theorem Effect.sched_eq {s t : State} (h : Effect s t) : t.sched = s.sched := by
  cases h with
  | pause | clearFlags | setCfgerr | spt | rcnt | answer | bank => rfl
  | push f => exact push_sched f s
  | deliver => exact deliver_sched s

/-- Every step takes one turn off the schedule (20_memory.md R71). -/
theorem step_sched {s t : State} (h : step s = .next t) : t.sched = s.sched.tail := by
  rcases step_cases h with rfl | ⟨w, rest, i, _, _, _, _, he⟩ | ⟨w, rest, e, _, _, _, _, rfl⟩ | ⟨_, _, rfl⟩ | ⟨n, _, _, rfl⟩ |
    ⟨_, rfl⟩
  · rfl
  · exact (Effect.of_exec he).sched_eq
  · rcases unmatched_eq e { dropTurn s with bus := rest } with hu | hu <;> rw [hu] <;> rfl
  · exact engineStep_sched _
  · exact deliver_sched _
  · rfl

/-- The reset event happens only where the schedule says so (log 4). -/
theorem nextTurn_ne_reset {s : State} (h : Turn.reset ∉ s.sched) : nextTurn s ≠ some .reset := by
  unfold nextTurn
  split
  next u rest hsched =>
    rintro ⟨⟩
    exact h (hsched ▸ List.mem_cons_self)
  next => split_ifs <;> simp

/-- The induction over the steps of a run without reset. -/
theorem RunsRing.run (n : Nat) : ∀ s, Sound s → Turn.reset ∉ s.sched → countRun pushAttempts n s ≤ free s →
    RunsRing s (countRun pushAttempts n s) (countRun framesPopped n s) (runSteps n s) := by
  induction n with
  | zero => exact fun s _ _ _ => .of_kept rfl rfl rfl rfl id
  | succ n ih =>
    intro s hs hreset hroom
    obtain ⟨t, l, hstep, hl, ht⟩ := RunsRing.step hs (nextTurn_ne_reset hreset) ((Nat.le_add_right _ _).trans hroom)
    rw [countRun_succ _ n s t hstep] at hroom ⊢
    rw [countRun_succ _ n s t hstep, runSteps_succ n s t hstep]
    have hfree := ht.free_add
    have hreset' : Turn.reset ∉ t.sched := fun hmem => hreset (List.mem_of_mem_tail (step_sched hstep ▸ hmem))
    obtain ⟨u, m, hrun, hm, hu⟩ := ih t (everyStepKeepsTheInvariant s t hs hstep) hreset' (by omega)
    exact ⟨u, l ++ m, hrun, by rw [List.length_append, hl, hm], ht.trans hu⟩

/-- `n` pops alone, none of them empty: the induction over the consumer's turns. -/
theorem RingRun.pops {rest : List Turn} (n : Nat) : ∀ s, Sound s → n ≤ occ s → n ≤ s.pops →
    s.sched = List.replicate n .consumer ++ rest → ∃ t, runSteps n s = .next t ∧ RingRun s [] n t ∧ t.udr = s.udr := by
  induction n with
  | zero => exact fun s _ _ _ _ => ⟨s, rfl, .of_kept rfl rfl rfl rfl id, rfl⟩
  | succ n ih =>
    intro s hs hocc hpops hsched
    obtain ⟨m, hm⟩ := Nat.exists_eq_succ_of_ne_zero (Nat.ne_zero_of_lt hpops)
    obtain ⟨t, hstep, ht, hudr, htpops⟩ := step_of_queued_consumer hs (nextTurn_of_sched hsched) hm (Nat.ne_zero_of_lt hocc)
    have hocc' : n ≤ occ t := by
      have hlen := congrArg List.length ht.queue
      rw [List.append_nil, List.length_drop, length_queue, length_queue] at hlen
      omega
    have hsched' : t.sched = List.replicate n .consumer ++ rest := by
      rw [step_sched hstep, hsched]
      rfl
    obtain ⟨u, hrun, hu, huudr⟩ := ih t (everyStepKeepsTheInvariant s t hs hstep) hocc' (by omega) hsched'
    exact ⟨u, (runSteps_succ n s t hstep).trans hrun, Nat.add_comm 1 n ▸ ht.trans hu, huudr.trans hudr⟩

/-- Settles O52: what a run does to the ring fixes the indices and the room; the frames popped are too few to go round the ring. -/
theorem drainedFramesAreTheReadIndexDifference : Obligations.DrainedFramesAreTheReadIndexDifference := by
  refine ⟨fun s n hs hreset hroom => ?_, fun s n rest hs hocc hpops hsched => ?_⟩
  · obtain ⟨t, l, hrun, hl, ht⟩ := RunsRing.run n s hs hreset hroom
    rw [← hl] at hroom ⊢
    exact ⟨t, l, hrun, ht.rd_sub_emod hroom, Nat.le_sub_one_of_lt (ht.popped_lt_cap hroom), rfl, ht.queue, ht.free_add, ht.ovr⟩
  · obtain ⟨t, hrun, ht, hudr⟩ := RingRun.pops n s hs hocc hpops hsched
    refine ⟨t, hrun, ht.rd_sub_emod (Nat.zero_le _), ht.free_add, ?_, hudr⟩
    rw [ht.queue, List.append_nil]

end Sys2Proof.Machine

/-! SUPPORT. The exceptions family (spec/60_exceptions.md): every operation and every step has a next state; a channel operation is
confined to its bank; what the producer side and the consumer's step leave alone; no behaviour but an answer reads a flag. -/

namespace Sys2Proof.Machine

/-! ### Every step has a next state -/

theorem exists_hostTurn_eq_next (s : State) : ∃ t, hostTurn s = .next t := by
  rcases hostTurn_cases s with ⟨_, e⟩ | ⟨_, _, e⟩ | ⟨w, rest, i, _, _, _, e⟩ | ⟨w, rest, x, _, _, _, e⟩
  · exact ⟨_, e⟩
  · exact ⟨_, e⟩
  · obtain ⟨t, ht, _⟩ := exec_effect i { s with bus := rest }
    exact ⟨t, e.trans ht⟩
  · exact ⟨_, e⟩

/-- No turn of any agent stops: an agent without an enabled step passes (60_exceptions.md R250; 20_memory.md R71). -/
theorem exists_takeTurn_eq_next (u : Option Turn) (s : State) : ∃ t, takeTurn u s = .next t := by
  cases u with
  | none => exact ⟨s, rfl⟩
  | some u =>
    cases u with
    | host => exact exists_hostTurn_eq_next s
    | engine => exact (engineTurn_counts s).imp fun _ h => h.1
    | consumer => exact (consumerTurn_keeps s).imp fun _ h => h.1
    | reset => exact ⟨_, rfl⟩

/-- Settles O5: every operation is one of the `Effect`s, and a step is a turn. -/
theorem everyOperationAndEveryStepHasANextState : Obligations.EveryOperationAndEveryStepHasANextState :=
  ⟨fun i s => (exec_effect i s).imp fun _ h => h.1, fun s => exists_takeTurn_eq_next (nextTurn s) (dropTurn s)⟩

/-! ### A channel operation and its bank -/

/-- A channel operation, in whatever state, writes one bank by a function of that bank or answers a function of that bank
(30_encoding.md R83). -/
theorem exec_of_chan {i : Instr} {c : Chan} (h : i.chan = some c) :
    (∃ f, ∀ s, exec i s = .next (updateBank c f s)) ∨ (∃ f, ∀ s, exec i s = .next (answer (bankWord c f s) s)) := by
  cases i with
  | wrCtrl | rdCtrl | wrStatus | rdStatus | wrSpt | rdSpt | wrRender | rdDiv | rdTickcnt | rdRbCap | rdRbWr | rdRbRd | rdRbOcc
  | rdRbFree | wrRbPush | pop => cases h
  | wrChEn | wrChWave | wrChVol | wrChAtk | wrChRls | wrChInc | wrChNote | wrChKeyoff | wrChReset =>
    cases h
    exact .inl ⟨_, fun _ => rfl⟩
  | rdChEn | rdChWave | rdChVol | rdChAtk | rdChRls | rdChInc | rdChAcc | rdChLevel | rdChStat =>
    cases h
    exact .inr ⟨_, fun _ => rfl⟩

theorem updateBank_getElem?_self (c : Chan) (f : Bank → Bank) (s : State) :
    (updateBank c f s).banks[c.toNat]? = s.banks[c.toNat]?.map f := by
  rw [updateBank_banks, List.getElem?_modify_eq, Option.map_eq_map]

theorem updateBank_getElem?_of_ne {c : Chan} {n : Nat} (h : n ≠ c.toNat) (f : Bank → Bank) (s : State) :
    (updateBank c f s).banks[n]? = s.banks[n]? := by
  rw [updateBank_banks, List.getElem?_modify_ne _ _ h.symm]

/-- A read of a bank depends on that bank alone, absent or not. -/
theorem bankWord_congr {c : Chan} {s s' : State} (h : s'.banks[c.toNat]? = s.banks[c.toNat]?) (f : Bank → Word) :
    bankWord c f s' = bankWord c f s := by
  unfold bankWord bank?
  rw [h]

/-- Settles O31, in the two forms of a channel operation. -/
theorem channelOperationTouchesItsOwnBankAlone : Obligations.ChannelOperationTouchesItsOwnBankAlone := by
  refine ⟨fun i c s t hi h => ?_, fun i c s t s' t' hi h h' hbank hrdata => ?_⟩
  · rcases exec_of_chan hi with ⟨f, hf⟩ | ⟨f, hf⟩ <;> obtain rfl := Host.Outcome.next.inj ((hf s).symm.trans h)
    · exact ⟨fun n hn => updateBank_getElem?_of_ne hn f s, rfl⟩
    · exact ⟨fun _ _ => rfl, rfl⟩
  · rcases exec_of_chan hi with ⟨f, hf⟩ | ⟨f, hf⟩ <;> obtain rfl := Host.Outcome.next.inj ((hf s).symm.trans h) <;>
      obtain rfl := Host.Outcome.next.inj ((hf s').symm.trans h')
    · rw [updateBank_getElem?_self, updateBank_getElem?_self, hbank]
      exact ⟨rfl, hrdata⟩
    · exact ⟨hbank, bankWord_congr hbank f⟩

/-! ### Ownership -/

/-- `t` has the consumer's side of `s`: `RD`, `LAST`, the consumer's port, and no new underrun (20_memory.md R75). -/
structure LeavesConsumer (s t : State) : Prop where
  rd : t.rd = s.rd
  last : t.last = s.last
  udr : t.udr = true → s.udr = true
  frame : t.frame = s.frame
  pops : t.pops = s.pops

theorem leavesConsumer_push (f : Word) (s : State) : LeavesConsumer s (push f s) := by
  rw [push_eq]
  exact ⟨rfl, rfl, id, rfl, rfl⟩

theorem leavesConsumer_engineStep (s : State) : LeavesConsumer s (engineStep s) := by
  rw [engineStep_frame]
  exact ⟨rfl, rfl, id, rfl, rfl⟩

/-- `WR.STATUS` can clear `UDR`; no other operation of the producer port touches the consumer's side at all. -/
theorem LeavesConsumer.of_exec {s t : State} {i : Instr} (hi : i ≠ .pop) (h : exec i s = .next t) : LeavesConsumer s t := by
  cases i with
  | pop => exact absurd rfl hi
  | wrRbPush d =>
    cases h
    exact leavesConsumer_push d s
  | wrStatus d =>
    cases h
    exact ⟨rfl, rfl, fun hudr => (Bool.and_eq_true_iff.mp hudr).1, rfl, rfl⟩
  | wrSpt d =>
    cases h
    split <;> exact ⟨rfl, rfl, id, rfl, rfl⟩
  | wrCtrl | wrRender | rdCtrl | rdStatus | rdSpt | rdDiv | rdTickcnt | rdRbCap | rdRbWr | rdRbRd | rdRbOcc | rdRbFree
  | rdChEn | rdChWave | rdChVol | rdChAtk | rdChRls | rdChInc | rdChAcc | rdChLevel | rdChStat
  | wrChEn | wrChWave | wrChVol | wrChAtk | wrChRls | wrChInc | wrChNote | wrChKeyoff | wrChReset =>
    cases h
    exact ⟨rfl, rfl, id, rfl, rfl⟩

/-- A step of the host or of the render engine leaves the consumer's side alone: no transaction is a pop. -/
theorem leavesConsumer_step {s t : State} (hn : nextTurn s = some .host ∨ nextTurn s = some .engine) (h : step s = .next t) :
    LeavesConsumer s t := by
  rcases step_cases h with rfl | ⟨w, rest, i, _, _, _, hd, he⟩ | ⟨w, rest, e, _, _, _, _, rfl⟩ | ⟨_, _, rfl⟩ | ⟨_, hc, _⟩ | ⟨hc, _⟩
  case inl => exact ⟨rfl, rfl, id, rfl, rfl⟩
  case inr.inl => exact { LeavesConsumer.of_exec (fun hpop => decode_bus_ne_pop w (hpop ▸ hd)) he with }
  case inr.inr.inl =>
    rcases unmatched_eq e { dropTurn s with bus := rest } with hu | hu <;> rw [hu] <;> exact ⟨rfl, rfl, id, rfl, rfl⟩
  case inr.inr.inr.inl => exact { leavesConsumer_engineStep (dropTurn s) with }
  all_goals simp [hc] at hn

/-- The consumer's step leaves all but its own side alone: it delivers a frame or passes (44_ring_buffer.md R195, R196). -/
theorem step_of_consumer_frame {s t : State} (hn : nextTurn s = some .consumer) (h : step s = .next t) :
    t = { s with rd := t.rd, last := t.last, udr := t.udr, frame := t.frame, pops := t.pops, sched := t.sched } := by
  rcases step_cases h with rfl | ⟨_, _, _, hc, _⟩ | ⟨_, _, _, hc, _⟩ | ⟨hc, _⟩ | ⟨n, _, _, rfl⟩ | ⟨hc, _⟩
  case inl => rfl
  case inr.inr.inr.inr.inl =>
    rw [deliver_pops, deliver_sched]
    exact deliver_eq _
  all_goals simp [hc] at hn

/-- Settles O50: the producer's turns by what each leaves, the consumer's by its frame. -/
theorem eachSideWritesItsOwnIndexAlone : Obligations.EachSideWritesItsOwnIndexAlone := by
  intro s t h
  refine ⟨fun hn => ?_, fun hn => step_of_consumer_frame hn h⟩
  obtain ⟨hrd, hlast, hudr, hframe, hpops⟩ := leavesConsumer_step hn h
  exact ⟨hrd, hlast, hudr, hframe, hpops⟩

/-! ### States that differ in their flags alone -/

/-- `t` is `s` but for the three sticky flags. -/
def FlagsApart (s t : State) : Prop := ∃ o u c, t = withFlags o u c s

theorem FlagsApart.refl (s : State) : FlagsApart s s := ⟨s.ovr, s.udr, s.cfgerr, rfl⟩

theorem flagsApart_withFlags (o u c : Bool) (s : State) : FlagsApart s (withFlags o u c s) := ⟨o, u, c, rfl⟩

/-- A push is accepted or rejected by the indices, whatever the flags (44_ring_buffer.md R191). -/
theorem FlagsApart.push {s t : State} (h : FlagsApart s t) (f : Word) : FlagsApart (push f s) (push f t) := by
  obtain ⟨o, u, c, rfl⟩ := h
  by_cases hfull : free s = 0
  · rw [push_of_full hfull, push_of_full (s := withFlags o u c s) hfull]
    exact ⟨true, u, c, rfl⟩
  · rw [push_of_room hfull, push_of_room (s := withFlags o u c s) hfull]
    exact ⟨o, u, c, rfl⟩

/-- A pop finds a frame or none by the indices, whatever the flags (44_ring_buffer.md R195). -/
theorem FlagsApart.deliver {s t : State} (h : FlagsApart s t) : FlagsApart (deliver s) (deliver t) := by
  obtain ⟨o, u, c, rfl⟩ := h
  by_cases hempty : occ s = 0
  · rw [deliver_of_empty hempty, deliver_of_empty (s := withFlags o u c s) hempty]
    exact ⟨o, true, c, rfl⟩
  · rw [deliver_of_queued hempty, deliver_of_queued (s := withFlags o u c s) hempty]
    exact ⟨o, u, c, rfl⟩

@[simp] theorem withFlags_banks (o u c : Bool) (s : State) : (withFlags o u c s).banks = s.banks := rfl
@[simp] theorem withFlags_tickcnt (o u c : Bool) (s : State) : (withFlags o u c s).tickcnt = s.tickcnt := rfl

@[simp] theorem tickIfDue_withFlags (o u c : Bool) (s : State) : tickIfDue (withFlags o u c s) = withFlags o u c (tickIfDue s) :=
  (apply_ite (withFlags o u c) (s.div = 0#16) (tickStep s) s).symm

/-- The render engine takes the branch of its step, and renders the frame, without looking at the flags (43_mixer.md R176). -/
theorem FlagsApart.engineStep {s t : State} (h : FlagsApart s t) : FlagsApart (engineStep s) (engineStep t) := by
  have hpush := h.push
  obtain ⟨o, u, c, rfl⟩ := h
  rcases engineStep_cases s with ⟨hsilent, e⟩ | ⟨hroom, hplay, e⟩
  · obtain ⟨o', u', c', hp⟩ := hpush 0#32
    rw [e, engineStep_of_silent (s := withFlags o u c s) hsilent, hp]
    exact ⟨o', u', c', rfl⟩
  · obtain ⟨o', u', c', hp⟩ := hpush (packFrame (mixValue ((tickIfDue s).banks.map Bank.advance)))
    rw [e, engineStep_of_rendered (s := withFlags o u c s) hroom hplay, tickIfDue_withFlags, withFlags_banks, withFlags_tickcnt, hp]
    exact ⟨o', u', c', rfl⟩

/-! ### Outcomes that differ in the flags alone -/

/-- Both outcomes are next states, and these differ in their flags alone. -/
def OutcomesFlagsApart (o o' : Host.Outcome State Fault Refusal) : Prop :=
  ∃ t t', o = .next t ∧ o' = .next t' ∧ FlagsApart t t'

theorem FlagsApart.next {t t' : State} (h : FlagsApart t t') : OutcomesFlagsApart (.next t) (.next t') := ⟨t, t', rfl, rfl, h⟩

theorem OutcomesFlagsApart.exists_next {o o' : Host.Outcome State Fault Refusal} (h : OutcomesFlagsApart o o') {t : State}
    (ht : o = .next t) : ∃ t', o' = .next t' ∧ FlagsApart t t' := by
  obtain ⟨v, v', hv, hv', hvv'⟩ := h
  obtain rfl : v = t := Host.Outcome.next.inj (hv.symm.trans ht)
  exact ⟨v', hv', hvv'⟩

/-- No operation but `RD.STATUS` reads a flag (60_exceptions.md R253): `WR.STATUS` masks each flag by itself. -/
theorem FlagsApart.exec {s s' : State} (h : FlagsApart s s') {i : Instr} (hi : i ≠ .rdStatus) :
    OutcomesFlagsApart (exec i s) (exec i s') := by
  cases i with
  | rdStatus => exact absurd rfl hi
  | wrRbPush d => exact (h.push d).next
  | pop => exact h.deliver.next
  | wrStatus d =>
    obtain ⟨o, u, c, rfl⟩ := h
    exact FlagsApart.next ⟨o && !fieldBit d 0, u && !fieldBit d 1, c && !fieldBit d 2, rfl⟩
  | wrSpt d =>
    obtain ⟨o, u, c, rfl⟩ := h
    by_cases hzero : d.setWidth 16 = 0#16
    · rw [exec_wrSpt_of_zero hzero, exec_wrSpt_of_zero hzero]
      exact FlagsApart.next ⟨o, u, true, rfl⟩
    · rw [exec_wrSpt_of_ne_zero hzero, exec_wrSpt_of_ne_zero hzero]
      exact FlagsApart.next ⟨o, u, c, rfl⟩
  | wrCtrl | wrRender | rdCtrl | rdSpt | rdDiv | rdTickcnt | rdRbCap | rdRbWr | rdRbRd | rdRbOcc | rdRbFree
  | rdChEn | rdChWave | rdChVol | rdChAtk | rdChRls | rdChInc | rdChAcc | rdChLevel | rdChStat
  | wrChEn | wrChWave | wrChVol | wrChAtk | wrChRls | wrChInc | wrChNote | wrChKeyoff | wrChReset =>
    obtain ⟨o, u, c, rfl⟩ := h
    exact FlagsApart.next ⟨o, u, c, rfl⟩

theorem FlagsApart.perform {s s' : State} (h : FlagsApart s s') {r : Request} (hr : decode r ≠ .ok .rdStatus) :
    OutcomesFlagsApart (perform r s) (perform r s') := by
  cases hd : decode r with
  | ok i =>
    rw [perform_of_ok hd, perform_of_ok hd]
    exact h.exec fun hi => hr (hi ▸ hd)
  | error e =>
    rw [perform_of_error hd, perform_of_error hd]
    obtain ⟨o, u, c, rfl⟩ := h
    cases e <;> exact FlagsApart.next ⟨o, u, c, rfl⟩

/-- The requests waiting at the ports and the schedule are not flags. -/
theorem FlagsApart.ports {s s' : State} (h : FlagsApart s s') (bus : List BusWord) (pops : Nat) (sched : List Turn) :
    FlagsApart { s with bus := bus, pops := pops, sched := sched } { s' with bus := bus, pops := pops, sched := sched } := by
  obtain ⟨o, u, c, rfl⟩ := h
  exact ⟨o, u, c, rfl⟩

theorem FlagsApart.dropTurn {s s' : State} (h : FlagsApart s s') : FlagsApart (dropTurn s) (dropTurn s') := by
  obtain ⟨o, u, c, rfl⟩ := h
  exact ⟨o, u, c, rfl⟩

/-! ### A step and the flags -/

/-- The next step is the host's and runs `RD.STATUS`. -/
def RunsStatusRead (s : State) : Prop :=
  nextTurn s = some .host ∧ s.rcnt = 0#16 ∧ ∃ w rest, s.bus = w :: rest ∧ decode (.bus w) = .ok .rdStatus

/-- Where it is nobody's turn, nothing changes (log 4). -/
theorem step_of_nobody {s : State} (h : nextTurn s = none) : step s = .next (dropTurn s) := by
  rw [step, h]
  rfl

section step

variable {s : State} (o u c : Bool)

theorem OutcomesFlagsApart.of_host (hn : nextTurn s = some .host) (hstatus : ¬RunsStatusRead s) :
    OutcomesFlagsApart (step s) (step (withFlags o u c s)) := by
  have hs := flagsApart_withFlags o u c s
  by_cases hidle : s.rcnt ≠ 0#16 ∨ s.bus = []
  · rw [step_of_idle_host hn hidle, step_of_idle_host (s := withFlags o u c s) hn hidle]
    exact hs.dropTurn.next
  · obtain ⟨hr, hb⟩ := not_or.mp hidle
    rw [not_not] at hr
    obtain ⟨w, rest, hb⟩ := List.exists_cons_of_ne_nil hb
    rw [step_of_host hn hr hb, step_of_host (s := withFlags o u c s) hn hr hb]
    exact (hs.ports rest s.pops s.sched.tail).perform fun hd => hstatus ⟨hn, hr, w, rest, hb, hd⟩

theorem OutcomesFlagsApart.of_engine (hn : nextTurn s = some .engine) :
    OutcomesFlagsApart (step s) (step (withFlags o u c s)) := by
  have hs := flagsApart_withFlags o u c s
  by_cases hr : s.rcnt = 0#16
  · rw [hostIsHeldWhileABurstIsPending.2 s hr hn, hostIsHeldWhileABurstIsPending.2 (withFlags o u c s) hr hn]
    exact hs.dropTurn.next
  · rw [step_eq_engineStep hn hr, step_eq_engineStep (s := withFlags o u c s) hn hr]
    exact hs.engineStep.dropTurn.next

theorem OutcomesFlagsApart.of_consumer (hn : nextTurn s = some .consumer) :
    OutcomesFlagsApart (step s) (step (withFlags o u c s)) := by
  have hs := flagsApart_withFlags o u c s
  cases hp : s.pops with
  | zero =>
    rw [step_of_idle_consumer hn hp, step_of_idle_consumer (s := withFlags o u c s) hn hp]
    exact hs.dropTurn.next
  | succ n =>
    rw [step_of_consumer hn hp, step_of_consumer (s := withFlags o u c s) hn hp]
    exact (hs.ports s.bus n s.sched.tail).exec (by decide)

/-- A step that does not run `RD.STATUS` does the same with other flags, but for the flags (60_exceptions.md R253). -/
theorem OutcomesFlagsApart.step (hstatus : ¬RunsStatusRead s) : OutcomesFlagsApart (step s) (step (withFlags o u c s)) := by
  cases hn : nextTurn s with
  | none =>
    rw [step_of_nobody hn, step_of_nobody (s := withFlags o u c s) hn]
    exact (flagsApart_withFlags o u c s).dropTurn.next
  | some a =>
    cases a with
    | host => exact OutcomesFlagsApart.of_host o u c hn hstatus
    | engine => exact OutcomesFlagsApart.of_engine o u c hn
    | consumer => exact OutcomesFlagsApart.of_consumer o u c hn
    | reset =>
      rw [step_of_reset hn, step_of_reset (s := withFlags o u c s) hn]
      exact (FlagsApart.refl _).next

end step

/-- The step that runs `RD.STATUS` answers the status word and takes the transaction and the turn (40_global_control.md R103). -/
theorem step_of_statusRead {s : State} {w : BusWord} {rest : List BusWord} (hn : nextTurn s = some .host) (hr : s.rcnt = 0#16)
    (hb : s.bus = w :: rest) (hd : decode (.bus w) = .ok .rdStatus) :
    step s = .next { s with bus := rest, sched := s.sched.tail, rdata := statusWord s } := by
  rw [step_of_host hn hr hb, perform_of_ok hd]
  rfl

/-- Settles O57: the step that runs `RD.STATUS` answers the word of the flags it finds; every other step does the same but for the
flags, and so does every other operation. -/
theorem flagsChangeNoBehaviour : Obligations.FlagsChangeNoBehaviour := by
  refine ⟨fun s t o u c h => ?_, fun i s t o u c hi h => ?_⟩
  · by_cases hstatus : RunsStatusRead s
    · obtain ⟨hn, hr, w, rest, hb, hd⟩ := hstatus
      obtain rfl := Host.Outcome.next.inj ((step_of_statusRead hn hr hb hd).symm.trans h)
      exact ⟨o, u, c, _, step_of_statusRead (s := withFlags o u c s) hn hr hb hd, .inr ⟨hn, hr, ⟨w, rest, hb, hd⟩, rfl⟩⟩
    · obtain ⟨_, hstep, o', u', c', rfl⟩ := (OutcomesFlagsApart.step o u c hstatus).exists_next h
      exact ⟨o', u', c', t.rdata, hstep, .inl rfl⟩
  · obtain ⟨_, hexec, o', u', c', rfl⟩ := ((flagsApart_withFlags o u c s).exec hi).exists_next h
    exact ⟨o', u', c', hexec⟩

end Sys2Proof.Machine

/-! SUPPORT. The reset and hazards family (spec/70_reset_and_hazards.md): what the registers read directly after reset, the prefill as
the consumer drains it, and the frame that ends a period of a lowered `SPT`. -/

namespace Sys2Proof.Machine

/-! ### The prefill -/

/-- The state `n` pops of the prefill after reset, with `p` more pops requested and scheduled (70_reset_and_hazards.md R282). -/
def drained (c : Config) (n p : Nat) : State :=
  { State.resetOf c with rd := n, pops := p, sched := List.replicate p .consumer }

/-- The frames of the prefill that are left: `WR` stays at `CAP - 1` (70_reset_and_hazards.md R282). -/
theorem occ_drained {c : Config} {n : Nat} (hn : n ≤ 2 ^ c.k - 1) (p : Nat) : occ (drained c n p) = 2 ^ c.k - 1 - n := by
  have hcap : 0 < 2 ^ c.k := Nat.two_pow_pos c.k
  refine occ_eq_of_wr_eq (s := drained c n p) (show 2 ^ c.k - 1 - n < 2 ^ c.k by omega) ?_
  change 2 ^ c.k - 1 = (n + (2 ^ c.k - 1 - n)) % 2 ^ c.k
  rw [Nat.add_sub_of_le hn, Nat.mod_eq_of_lt (by omega)]

/-- The consumer's step on the prefill delivers `0x00000000` and moves `RD` on (44_ring_buffer.md R195). -/
theorem step_drained_of_lt {c : Config} {n : Nat} (hn : n < 2 ^ c.k - 1) (p : Nat) :
    step (drained c n (p + 1)) = .next (drained c (n + 1) p) := by
  have hqueued : occ { drained c n (p + 1) with pops := p, sched := List.replicate p .consumer } ≠ 0 := by
    have hocc := occ_drained hn.le (p + 1)
    exact fun hempty => absurd (hocc.symm.trans hempty) (by omega)
  have hrd : (n + 1) % 2 ^ c.k = n + 1 := Nat.mod_eq_of_lt (by omega)
  calc step (drained c n (p + 1))
      = .next (deliver { drained c n (p + 1) with pops := p, sched := List.replicate p .consumer }) := step_of_consumer rfl rfl
    _ = .next { drained c n p with rd := (n + 1) % 2 ^ c.k } := congrArg Host.Outcome.next (deliver_of_queued hqueued)
    _ = .next (drained c (n + 1) p) := by rw [hrd]; rfl

/-- The consumer's step on the drained prefill underruns (44_ring_buffer.md R196). -/
theorem step_drained_of_empty (c : Config) (p : Nat) :
    step (drained c (2 ^ c.k - 1) (p + 1)) = .next { drained c (2 ^ c.k - 1) p with udr := true } := by
  have hempty : occ { drained c (2 ^ c.k - 1) (p + 1) with pops := p, sched := List.replicate p .consumer } = 0 :=
    (occ_drained le_rfl (p + 1)).trans (Nat.sub_self _)
  exact (step_of_consumer rfl rfl).trans (congrArg Host.Outcome.next (deliver_of_empty hempty))

/-- The first `m` steps of a run of pops, while the prefill lasts: the induction over the consumer's turns. -/
theorem runSteps_drained {c : Config} (m p : Nat) {n : Nat} (hn : n + m ≤ 2 ^ c.k - 1) :
    runSteps (p + m) (drained c n (p + m)) = runSteps p (drained c (n + m) p) := by
  induction m generalizing n with
  | zero => rfl
  | succ m ih =>
    rw [← Nat.add_assoc, runSteps_succ _ _ _ (step_drained_of_lt (by omega) (p + m)), ih (by omega), Nat.add_assoc,
      Nat.add_comm 1 m]

/-- Settles O15: the pops that find a frame drain the prefill, and one pop more finds it empty. -/
theorem prefillDrainsThenUnderruns : Obligations.PrefillDrainsThenUnderruns := by
  rintro c n s rfl
  change (_ → ∃ t, runSteps n (drained c 0 n) = .next t ∧ _) ∧ (_ → ∃ t, runSteps n (drained c 0 n) = .next t ∧ _)
  refine ⟨fun hn => ?_, fun hn => ?_⟩
  · have hrun := runSteps_drained (c := c) n 0 (n := 0) (by omega)
    rw [Nat.zero_add] at hrun
    exact ⟨drained c n 0, hrun, rfl, rfl, rfl, rfl, occ_drained hn 0⟩
  · have hcap : 1 + (2 ^ c.k - 1) = n := by
      have := Nat.two_pow_pos c.k
      omega
    have hrun := runSteps_drained (c := c) (2 ^ c.k - 1) 1 (n := 0) (by omega)
    rw [hcap, Nat.zero_add, runSteps_succ _ _ _ (step_drained_of_empty c 0)] at hrun
    exact ⟨_, hrun, rfl, rfl, rfl, rfl⟩

/-! ### The registers directly after reset -/

/-- The buffer is full of silence after reset (10_state.md R56). -/
theorem occ_resetOf (c : Config) : occ (State.resetOf c) = 2 ^ c.k - 1 := occ_drained (Nat.zero_le _) 0

theorem free_resetOf (c : Config) : free (State.resetOf c) = 0 := (free_eq_zero_iff _).mpr (occ_resetOf c)

/-- Every field of a reset bank reads 0 (10_state.md R56). -/
theorem exec_read_of_reset_bank {i : Instr} {c : Chan} {s : State} (hi : i.chan = some c) (hread : i.isRead = true)
    (hb : s.banks[c.toNat]? = some Bank.reset) : exec i s = .next (answer 0#32 s) := by
  cases i with
  | wrCtrl | rdCtrl | wrStatus | rdStatus | wrSpt | rdSpt | wrRender | rdDiv | rdTickcnt | rdRbCap | rdRbWr | rdRbRd | rdRbOcc
  | rdRbFree | wrRbPush | pop => cases hi
  | wrChEn | wrChWave | wrChVol | wrChAtk | wrChRls | wrChInc | wrChNote | wrChKeyoff | wrChReset =>
    exact absurd hread Bool.false_ne_true
  | rdChEn | rdChWave | rdChVol | rdChAtk | rdChRls | rdChInc | rdChAcc | rdChLevel | rdChStat =>
    cases hi
    exact congrArg (fun v => Host.Outcome.next (answer v s)) (bankWord_of_some hb _)

/-- A read at any offset of a reset bank is answered 0: a register's value, or the answer of an offset without a readable one
(30_encoding.md R88, R90). -/
theorem perform_read_of_reset_bank {c : Chan} {o : Nat} {s : State} (ho : o < 16) (hb : s.banks[c.toNat]? = some Bank.reset)
    (d : Word) : perform (atChannel false c o d) s = .next { s with rdata := 0#32 } := by
  have hd := decode_atChannel false c o ho d
  cases hr : decodeChannel false c o d with
  | ok i =>
    have hread : i.isRead = true := (congrArg decodedRead hr).symm.trans (decodedRead_decodeChannel false c o d)
    rw [perform_of_ok (hd.trans hr), exec_read_of_reset_bank (chan_of_decodeChannel hr) hread hb]
    rfl
  | error e => exact perform_atChannel_of_rejected ho hr s

/-- Every read in the channel region is answered 0 after reset, whether or not the channel exists (30_encoding.md R91). -/
theorem perform_channelRead_resetOf (c : Config) (ch : Chan) {o : Nat} (ho : o < 16) :
    perform (atChannel false ch o 0#32) (State.resetOf c) = .next { State.resetOf c with rdata := 0#32 } := by
  by_cases hch : ch.toNat < c.nch
  · exact perform_read_of_reset_bank ho (List.getElem?_replicate_of_lt hch) 0#32
  · have habsent : (State.resetOf c).nch ≤ ch.toNat := by
      rw [State.nch, ← State.config_nch, State.config_resetOf]
      exact Nat.le_of_not_lt hch
    exact absentChannelReadsZeroAndIgnoresWrites false ch o 0#32 _ ho habsent

/-- A read of a write-only global register is answered 0, in every state (30_encoding.md R90). -/
theorem perform_writeOnlyRead {a : Addr} (ha : a ∈ [0x003#12, 0x015#12]) (s : State) :
    perform (.bus (busWord false a 0#32)) s = .next { s with rdata := 0#32 } := by
  obtain ⟨hglobal, _⟩ := writeOnlyRegistersReadZeroWithoutAction
  exact hglobal a 0#32 s ha

/-- Settles O14: the global registers hold the values of the reset table, `OCC` and `FREE` follow from the indices, and the banks are
reset or absent. -/
theorem registersReadTheirResetValues : Obligations.RegistersReadTheirResetValues := by
  rintro c s rfl
  refine ⟨rfl, answers_of_eq rfl (statusWord_eq_ofNat _), rfl, perform_writeOnlyRead (by decide) _, rfl, rfl, rfl, rfl, rfl,
    answers_of_eq rfl ?occ, answers_of_eq rfl ?free, perform_writeOnlyRead (by decide) _,
    fun ch _ => perform_channelRead_resetOf c ch⟩
  case occ => rw [occ_resetOf]
  case free => rw [free_resetOf]

/-! ### A lowered `SPT` -/

/-- `DIV` at or above `SPT` is counted to 0 (43_mixer.md R176). -/
theorem nextDiv_of_spt_le_div {s : State} (h : s.spt.toNat ≤ s.div.toNat) : nextDiv s = 0#16 :=
  if_pos (Nat.le_succ_of_le h)

/-- A frame step of a running period performs no tick (43_mixer.md R176). -/
theorem tickIfDue_of_div_ne_zero {s : State} (h : s.div ≠ 0#16) : tickIfDue s = s := if_neg h

/-- Settles O55: the frame is rendered, its tick is not due, and `DIV` has reached the lowered `SPT`. -/
theorem loweredSptEndsThePeriodWithTheNextFrame : Obligations.LoweredSptEndsThePeriodWithTheNextFrame := by
  intro s hn hr hroom hplay hdiv hspt
  refine ⟨_, step_eq_engineStep hn hr, ?_⟩
  rw [engineStep_of_rendered hroom hplay, tickIfDue_of_div_ne_zero hdiv, nextDiv_of_spt_le_div hspt]
  exact ⟨rfl, rfl, rfl⟩

end Sys2Proof.Machine
